-- ==== Sys2Proof/Word.lean ====
section
/-! DEFINITION. Word.lean: the bit vectors that the spec itself treats as bits (R5). -/

namespace Sys2Proof

/-- A 64-bit register, address, draw or binary64 pattern (R5 `u64`, `f64`). -/
abbrev Word := BitVec 64

/-- A 32-bit command word or 32-bit operand register (R14, R60). -/
abbrev Half := BitVec 32

/-- One byte of the frame-buffer space (R5, R41). -/
abbrev Byte := BitVec 8

end Sys2Proof
end

