-- ==== Sys2Proof/Config.lean ====
section
/-! DEFINITION. Config.lean: the implementation parameters of R4, the value each takes for this hardware, and
the free values: the constants without a body that stand for what the spec leaves open. -/

namespace Sys2Proof.Config

/-- The byte order that the native tags S16, S24 and S32 resolve to (R4 `NATIVE_ORDER`, R43). -/
inductive NativeOrder where
  | le
  | be
  deriving DecidableEq, Repr

/-- The value of the fourth byte of a four-byte S24 slot (R4 `PAD24`, R108). -/
inductive Pad24 where
  | zero
  | sign
  deriving DecidableEq, Repr

/-- How long a synthesis holds the generator lock (R4 `LOCK_GRAIN`, R95, R137). -/
inductive LockGrain where
  | call
  | sample
  deriving DecidableEq, Repr

/-- The parameters of R4 that choose between behaviours the spec describes. They are fixed when the block is
built (R38). -/
structure Params where
  nativeOrder : NativeOrder
  pad24 : Pad24
  lockGrain : LockGrain
  deriving DecidableEq, Repr

/-- The values R4 gives this hardware: `NATIVE_ORDER = LE`, `PAD24 = ZERO`, `LOCK_GRAIN = CALL`. -/
def hardware : Params := { nativeOrder := .le, pad24 := .zero, lockGrain := .call }

/-- `NPORTS` of the machine that leaves reset. DESIGN CHOICE (log 1): R4 leaves it an argument of the model and its
test vectors use 2. -/
def nports : Nat := 2

/-- FREE VALUE (log 2). Which of the results that R146 (P3) admits `LOG2` returns for an argument that is no power of
two: a function of the argument alone (P1). -/
opaque log2Pick : Word → BitVec 2

/-- FREE VALUE (log 2). What `LOG2` returns outside `(0, 1]`, where R146 states nothing and R144 never calls it. -/
opaque log2Outside : Word → Word

/-- FREE VALUE (log 3). Which of several enabled agents moves next where no schedule is given (R9, R100): the index it
gives is taken modulo the number of enabled agents. -/
opaque arbiter : Nat → Nat

end Sys2Proof.Config
end

