-- ==== Sys2Proof/Syntax.lean ====
section
/-! DEFINITION. Syntax.lean: the sixteen sample formats, the fields of a command, the 53 commands of
spec/opcode_table.json, and the actions a host can take on its window. -/

namespace Sys2Proof

/-- The sixteen values of SampleFormat: thirteen concrete formats and three sentinels (R62, R80). -/
inductive Format where
  | unknown
  | s8
  | u8
  | s16
  | s16Le
  | s16Be
  | s24
  | s24Le
  | s24Be
  | s243Le
  | s243Be
  | s32
  | s32Le
  | s32Be
  | auto
  | invalid
  deriving DecidableEq, Repr

/-- The three volume curves, with the codes of R63. -/
inductive Curve where
  | flat
  | taper
  | seg
  deriving DecidableEq, Repr

/-- The fields of a 64-bit value written to `CMD`: the high half that must be zero and the fields of format `C`
(R24, R60). -/
structure CommandFields where
  high : Half
  opc : BitVec 4
  sub : BitVec 4
  dth : Bool
  z : BitVec 23
  deriving DecidableEq, Repr

/-- Why a value written to `CMD` is no command: one name for each condition of R66. -/
inductive Illegal where
  /-- `v[63:32] != 0`. -/
  | highHalfSet
  /-- `Z != 0`. -/
  | reservedBitsSet
  /-- `OPC` is 0x0 or 0x7 to 0xF. -/
  | noSuchOpcode
  /-- `DTH = 1` and `OPC != 0x3`. -/
  | ditherFlagMisplaced
  /-- `OPC` is 0x1 or 0x2 and `SUB != 0`. -/
  | subNotZero
  /-- `OPC = 0x4` and `SUB > 2`. -/
  | noSuchCurve
  deriving DecidableEq, Repr

/-- The commands: one constructor for each row of spec/opcode_table.json. A SYN row carries its one operand bit, the
`DTH` flag of R64; no other row has an operand field (R65). -/
inductive Instr where
  | init
  | draw
  | synUnknown (dth : Bool)
  | synS8 (dth : Bool)
  | synU8 (dth : Bool)
  | synS16 (dth : Bool)
  | synS16Le (dth : Bool)
  | synS16Be (dth : Bool)
  | synS24 (dth : Bool)
  | synS24Le (dth : Bool)
  | synS24Be (dth : Bool)
  | synS243Le (dth : Bool)
  | synS243Be (dth : Bool)
  | synS32 (dth : Bool)
  | synS32Le (dth : Bool)
  | synS32Be (dth : Bool)
  | synAuto (dth : Bool)
  | synInvalid (dth : Bool)
  | vcFlat
  | vcTaper
  | vcSeg
  | fmtqUnknown
  | fmtqS8
  | fmtqU8
  | fmtqS16
  | fmtqS16Le
  | fmtqS16Be
  | fmtqS24
  | fmtqS24Le
  | fmtqS24Be
  | fmtqS243Le
  | fmtqS243Be
  | fmtqS32
  | fmtqS32Le
  | fmtqS32Be
  | fmtqAuto
  | fmtqInvalid
  | encUnknown
  | encS8
  | encU8
  | encS16
  | encS16Le
  | encS16Be
  | encS24
  | encS24Le
  | encS24Be
  | encS243Le
  | encS243Be
  | encS32
  | encS32Le
  | encS32Be
  | encAuto
  | encInvalid
  deriving DecidableEq, Repr

/-- The 8-byte slot of a register in its port's window: the byte offset of R34 divided by eight. The interface has
aligned accesses only (R34, R45), so no other offset can be written down. -/
abbrev Slot := BitVec 5

/-- What the host of a port can do next. `write`, `read` and `wait` are the pseudo-operations SET (and a command
issue), GET and WAIT of R69; `store` is the host's own access to the frame-buffer space (R40; log 4). -/
inductive HostAction where
  | write (slot : Slot) (v : Word)
  | read (slot : Slot)
  | wait
  | store (addr : Word) (b : Byte)
  deriving DecidableEq, Repr

/-- The agents: one host and one sequencer for each port (R9). -/
inductive Agent where
  | host (p : Nat)
  | sequencer (p : Nat)
  deriving DecidableEq, Repr

end Sys2Proof
end

