-- ==== Sys2Proof/Machine/State.lean ====
section
/-! DEFINITION. Machine/State.lean: the whole state of the machine as plain data, the reasons for which the model
itself stops, and the state after reset. -/

namespace Sys2Proof.Machine

/-- Why a step of the model stops. The fatal faults of the spec are none of these: they are states (R172). -/
inductive Fault where
  /-- Raised by the step of SYN or ENC that begins a `MemWrite`, and by a host's own store, where the platform does not
  admit an address of it; the address is the first one not admitted. R49 and R186 call the port stuck and give it no step. Safe: the model stops
  where the hardware gives no outcome. -/
  | stuck (addr : Word)
  deriving DecidableEq, Repr

/-- Why the model refuses a step. -/
inductive Refusal where
  /-- Raised by `exec` for a command that has no meaning yet. Safe: nothing is claimed of it. -/
  | notModelled (mnemonic : String)
  /-- Raised by the accepting step of a SYN whose range `BUF + 2 * NFR * W` exceeds `2^64`: R50 has the model refuse
  it. Safe: the spec gives such a run no outcome. -/
  | bufferWraps (buf : Word) (nfr : Half) (width : Nat)
  deriving DecidableEq, Repr

/-- The outcome of a step of this machine. -/
abbrev Outcome (σ : Type) := Host.Outcome σ Fault Refusal

/-- DitherState: the four words of the generator (R11). -/
structure Dither where
  a : Word
  b : Word
  c : Word
  d : Word
  deriving DecidableEq, Repr

/-- The generator's lock: free, or held by one port (R13). -/
inductive Lock where
  | free
  | held (p : Nat)
  deriving DecidableEq, Repr

/-- The phase of a port sequencer (R31). -/
inductive Phase where
  | idle
  | waitLock
  | run
  deriving DecidableEq, Repr

/-- The record a port sequencer keeps (R31). Three fields are the model's own: `op`, the command being run, decoded once
when it was accepted (R55, log 16); `out`, the single-byte writes that are left of the `MemWrite` it is performing, in the
order of R42 (R46, log 18); `sent`, whether the `MemWrite` of an ENC, or of a sample that has a lock of its own (R137), has
begun, so that the completion or the release follows its last byte (log 28). -/
structure Seq where
  phase : Phase
  cur : Word
  sidx : BitVec 33
  prev : Word
  op : Option Instr
  out : List (Word × Byte)
  sent : Bool
  deriving DecidableEq, Repr

/-- One requester port: its nine operand registers (R14), `CMD` (R24) and its sequencer (R31). `prog` is the model's
own: what the port's host does next (R69, log 17). -/
structure Port where
  buf : Word
  nfr : Half
  tok : Word
  seed : Word
  vol : Word
  maxdb : Half
  mindb : Half
  res : Word
  hs : Word
  cmd : Word
  seq : Seq
  prog : List HostAction
  deriving DecidableEq, Repr

/-- A range of frame-buffer addresses that the platform backs with memory (R48). -/
structure Region where
  base : Nat
  size : Nat
  deriving DecidableEq, Repr

/-- What one register read of a host returned (R36; log 21). -/
structure ReadRecord where
  port : Nat
  slot : Slot
  value : Word
  deriving DecidableEq, Repr

/-- The state of the block (R10), of the frame-buffer space it writes (R39, R41), and of the agents around it. -/
structure State where
  /-- The parameters of R4; no step changes them (R38, log 8). -/
  cfg : Config.Params
  /-- DitherState (R11). -/
  dither : Dither
  /-- `SEEDED` (R12). -/
  seeded : Bool
  /-- `LOCK` (R13). -/
  lock : Lock
  /-- `FAULT` (R26). -/
  fault : Word
  /-- `FINFO` (R27). -/
  finfo : Word
  /-- `DIAGCNT` (R28). -/
  diagCnt : Word
  /-- `DIAGVOL` (R29). -/
  diagVol : Word
  /-- `DIAGSRC` (R30). -/
  diagSrc : Word
  /-- The ports; their number is `NPORTS` (R4, R9). -/
  ports : List Port
  /-- The frame-buffer bytes written so far, addresses strictly rising (R41, log 5). -/
  mem : List Host.Cell
  /-- The frame-buffer addresses the platform admits (R48, R49, log 5). -/
  platform : List Region
  /-- The port whose agent takes this step (model's own, log 26). -/
  active : Nat
  /-- The agents that move next, in order (model's own, log 3). -/
  sched : List Agent
  /-- How many free choices of an agent have been made (model's own, log 3). -/
  choices : Nat
  /-- What the hosts' reads returned, newest first (model's own, log 21). -/
  reads : List ReadRecord
  deriving DecidableEq, Repr

/-- A sequencer after reset: `IDLE` (R37). `CUR`, `SIDX` and `PREV` are unspecified and unused there; DESIGN CHOICE 0
(log 7). -/
def Seq.reset : Seq :=
  { phase := .idle, cur := 0, sidx := 0, prev := 0, op := none, out := [], sent := false }

/-- A port after reset: every operand register and `CMD` 0, the sequencer idle (R37), its host with nothing to do. -/
def Port.reset : Port :=
  { buf := 0, nfr := 0, tok := 0, seed := 0, vol := 0, maxdb := 0, mindb := 0, res := 0, hs := 0, cmd := 0,
    seq := Seq.reset, prog := [] }

/-- The reset state of a block built with given parameters, a given number of ports and a given platform (R37, R195).
DitherState is unspecified after reset (R196); DESIGN CHOICE 0 (log 6), which no step reads while `SEEDED = 0`. -/
def State.resetWith (cfg : Config.Params) (nports : Nat) (platform : List Region) : State :=
  { cfg := cfg, dither := { a := 0, b := 0, c := 0, d := 0 }, seeded := false, lock := .free, fault := 0, finfo := 0,
    diagCnt := 0, diagVol := 0, diagSrc := 0, ports := List.replicate nports Port.reset, mem := [],
    platform := platform, active := 0, sched := [], choices := 0, reads := [] }

/-- The machine right after reset (R37, R195): R4's parameter values, two ports (DESIGN CHOICE, log 1), and the whole
64-bit frame-buffer space admitted (DESIGN CHOICE, log 5). -/
def State.reset : State :=
  State.resetWith Config.hardware Config.nports [{ base := 0, size := 2 ^ 64 }]

end Sys2Proof.Machine
end

