-- ==== Sys2Proof/Machine/Generator.lean ====
section
/-! DEFINITION. Machine/Generator.lean: the functions of the dither source, `rotate`, `draw` and `init` (R90 to R92). -/

namespace Sys2Proof.Machine

/-- `rotate(x, k) = (x << k) | (x >> (64 - k))` (R90). -/
def rotate (x : Word) (k : Nat) : Word := (x <<< k) ||| (x >>> (64 - k))

/-- `draw()`: the DitherState after it; its result is the new `d` (R91). -/
def Dither.next (s : Dither) : Dither :=
  let e := s.a - rotate s.b 7
  let a := s.b ^^^ rotate s.c 13
  let b := s.c + rotate s.d 37
  let c := s.d + e
  let d := e + a
  { a := a, b := b, c := c, d := d }

/-- The value `draw()` returns (R91). -/
def Dither.value (s : Dither) : Word := s.next.d

/-- The DitherState after `n` draws (R91, R94). -/
def Dither.advance : Nat → Dither → Dither
  | 0, s => s
  | n + 1, s => Dither.advance n s.next

/-- The constant `init` puts into `a`, zero-extended (R92). -/
def initConstant : Word := 0xF1EA5EED#64

/-- How many draws `init` throws away (R92). -/
def discardedDraws : Nat := 20

/-- `init(seed)`: the DitherState it leaves (R92). -/
def Dither.init (seed : Word) : Dither :=
  Dither.advance discardedDraws { a := initConstant, b := seed, c := seed, d := seed }

end Sys2Proof.Machine
end

