-- ==== Sys2Proof/Decode.lean ====
section
/-! DEFINITION. Decode.lean: the decoder of a value written to `CMD`, total on every 64-bit value (R66, R67), and the
encoder written from the same encoding tables (R60 to R64). -/

namespace Sys2Proof

/-- The fields of a 64-bit value, sliced as R60 numbers them. -/
def fieldsOf (v : Word) : CommandFields :=
  { high := v.extractLsb' 32 32
    opc := v.extractLsb' 28 4
    sub := v.extractLsb' 24 4
    dth := v.getLsbD 23
    z := v.extractLsb' 0 23 }

/-- The format code of R62. -/
def Format.code : Format → BitVec 4
  | .unknown => 0
  | .s8 => 1
  | .u8 => 2
  | .s16 => 3
  | .s16Le => 4
  | .s16Be => 5
  | .s24 => 6
  | .s24Le => 7
  | .s24Be => 8
  | .s243Le => 9
  | .s243Be => 10
  | .s32 => 11
  | .s32Le => 12
  | .s32Be => 13
  | .auto => 14
  | .invalid => 15

/-- The tag a format code stands for; all sixteen codes are assigned (R62). -/
def Format.ofCode (c : BitVec 4) : Format :=
  match c.toNat with
  | 0 => .unknown
  | 1 => .s8
  | 2 => .u8
  | 3 => .s16
  | 4 => .s16Le
  | 5 => .s16Be
  | 6 => .s24
  | 7 => .s24Le
  | 8 => .s24Be
  | 9 => .s243Le
  | 10 => .s243Be
  | 11 => .s32
  | 12 => .s32Le
  | 13 => .s32Be
  | 14 => .auto
  | _ => .invalid

/-- The curve code of R63. -/
def Curve.code : Curve → BitVec 4
  | .flat => 0
  | .taper => 1
  | .seg => 2

/-- The curve a code stands for; codes 3 to 15 are illegal (R63). -/
def Curve.ofCode (c : BitVec 4) : Option Curve :=
  match c.toNat with
  | 0 => some .flat
  | 1 => some .taper
  | 2 => some .seg
  | _ => none

/-- `SYN.<F>` (R61, opcode 0x3). -/
def Instr.syn (f : Format) (dth : Bool) : Instr :=
  match f with
  | .unknown => .synUnknown dth
  | .s8 => .synS8 dth
  | .u8 => .synU8 dth
  | .s16 => .synS16 dth
  | .s16Le => .synS16Le dth
  | .s16Be => .synS16Be dth
  | .s24 => .synS24 dth
  | .s24Le => .synS24Le dth
  | .s24Be => .synS24Be dth
  | .s243Le => .synS243Le dth
  | .s243Be => .synS243Be dth
  | .s32 => .synS32 dth
  | .s32Le => .synS32Le dth
  | .s32Be => .synS32Be dth
  | .auto => .synAuto dth
  | .invalid => .synInvalid dth

/-- `FMTQ.<F>` (R61, opcode 0x5). -/
def Instr.fmtq : Format → Instr
  | .unknown => .fmtqUnknown
  | .s8 => .fmtqS8
  | .u8 => .fmtqU8
  | .s16 => .fmtqS16
  | .s16Le => .fmtqS16Le
  | .s16Be => .fmtqS16Be
  | .s24 => .fmtqS24
  | .s24Le => .fmtqS24Le
  | .s24Be => .fmtqS24Be
  | .s243Le => .fmtqS243Le
  | .s243Be => .fmtqS243Be
  | .s32 => .fmtqS32
  | .s32Le => .fmtqS32Le
  | .s32Be => .fmtqS32Be
  | .auto => .fmtqAuto
  | .invalid => .fmtqInvalid

/-- `ENC.<F>` (R61, opcode 0x6). -/
def Instr.enc : Format → Instr
  | .unknown => .encUnknown
  | .s8 => .encS8
  | .u8 => .encU8
  | .s16 => .encS16
  | .s16Le => .encS16Le
  | .s16Be => .encS16Be
  | .s24 => .encS24
  | .s24Le => .encS24Le
  | .s24Be => .encS24Be
  | .s243Le => .encS243Le
  | .s243Be => .encS243Be
  | .s32 => .encS32
  | .s32Le => .encS32Le
  | .s32Be => .encS32Be
  | .auto => .encAuto
  | .invalid => .encInvalid

/-- `VC.<curve>` (R61, opcode 0x4). -/
def Instr.vc : Curve → Instr
  | .flat => .vcFlat
  | .taper => .vcTaper
  | .seg => .vcSeg

/-- The command that fields name, or the condition of R66 that makes them illegal. -/
def decodeFields (c : CommandFields) : Except Illegal Instr :=
  if c.high ≠ 0 then .error .highHalfSet
  else if c.z ≠ 0 then .error .reservedBitsSet
  else if c.opc = 0x3 then .ok (.syn (.ofCode c.sub) c.dth)
  else if c.dth then .error .ditherFlagMisplaced
  else if c.opc = 0x1 then (if c.sub = 0 then .ok .init else .error .subNotZero)
  else if c.opc = 0x2 then (if c.sub = 0 then .ok .draw else .error .subNotZero)
  else if c.opc = 0x4 then
    match Curve.ofCode c.sub with
    | some k => .ok (.vc k)
    | none => .error .noSuchCurve
  else if c.opc = 0x5 then .ok (.fmtq (.ofCode c.sub))
  else if c.opc = 0x6 then .ok (.enc (.ofCode c.sub))
  else .error .noSuchOpcode

/-- The command a 64-bit value written to `CMD` issues: total, and without state (R67). -/
def decode (v : Word) : Except Illegal Instr :=
  decodeFields (fieldsOf v)

/-- The fields of format `C` with their two zero fields, the way R68 builds a word. -/
def CommandFields.plain (opc sub : BitVec 4) (dth : Bool) : CommandFields :=
  { high := 0, opc := opc, sub := sub, dth := dth, z := 0 }

/-- The fields of each command: the encoding columns of R61 to R64 and of spec/opcode_table.json. -/
def Instr.fields : Instr → CommandFields
  | .init => .plain 0x1 0 false
  | .draw => .plain 0x2 0 false
  | .synUnknown d => .plain 0x3 0 d
  | .synS8 d => .plain 0x3 1 d
  | .synU8 d => .plain 0x3 2 d
  | .synS16 d => .plain 0x3 3 d
  | .synS16Le d => .plain 0x3 4 d
  | .synS16Be d => .plain 0x3 5 d
  | .synS24 d => .plain 0x3 6 d
  | .synS24Le d => .plain 0x3 7 d
  | .synS24Be d => .plain 0x3 8 d
  | .synS243Le d => .plain 0x3 9 d
  | .synS243Be d => .plain 0x3 10 d
  | .synS32 d => .plain 0x3 11 d
  | .synS32Le d => .plain 0x3 12 d
  | .synS32Be d => .plain 0x3 13 d
  | .synAuto d => .plain 0x3 14 d
  | .synInvalid d => .plain 0x3 15 d
  | .vcFlat => .plain 0x4 0 false
  | .vcTaper => .plain 0x4 1 false
  | .vcSeg => .plain 0x4 2 false
  | .fmtqUnknown => .plain 0x5 0 false
  | .fmtqS8 => .plain 0x5 1 false
  | .fmtqU8 => .plain 0x5 2 false
  | .fmtqS16 => .plain 0x5 3 false
  | .fmtqS16Le => .plain 0x5 4 false
  | .fmtqS16Be => .plain 0x5 5 false
  | .fmtqS24 => .plain 0x5 6 false
  | .fmtqS24Le => .plain 0x5 7 false
  | .fmtqS24Be => .plain 0x5 8 false
  | .fmtqS243Le => .plain 0x5 9 false
  | .fmtqS243Be => .plain 0x5 10 false
  | .fmtqS32 => .plain 0x5 11 false
  | .fmtqS32Le => .plain 0x5 12 false
  | .fmtqS32Be => .plain 0x5 13 false
  | .fmtqAuto => .plain 0x5 14 false
  | .fmtqInvalid => .plain 0x5 15 false
  | .encUnknown => .plain 0x6 0 false
  | .encS8 => .plain 0x6 1 false
  | .encU8 => .plain 0x6 2 false
  | .encS16 => .plain 0x6 3 false
  | .encS16Le => .plain 0x6 4 false
  | .encS16Be => .plain 0x6 5 false
  | .encS24 => .plain 0x6 6 false
  | .encS24Le => .plain 0x6 7 false
  | .encS24Be => .plain 0x6 8 false
  | .encS243Le => .plain 0x6 9 false
  | .encS243Be => .plain 0x6 10 false
  | .encS32 => .plain 0x6 11 false
  | .encS32Le => .plain 0x6 12 false
  | .encS32Be => .plain 0x6 13 false
  | .encAuto => .plain 0x6 14 false
  | .encInvalid => .plain 0x6 15 false

/-- The word of format `C` that holds given fields: `OPC << 28 | SUB << 24 | DTH << 23 | Z` (R60, R68). -/
def CommandFields.word (c : CommandFields) : Half :=
  c.opc ++ c.sub ++ BitVec.ofBool c.dth ++ c.z

/-- The command word of a command (R68). -/
def encode (i : Instr) : Half :=
  i.fields.word

/-- The 64-bit value a host writes to `CMD` to issue a command: the word, with a zero high half (R24). -/
def commandValue (i : Instr) : Word :=
  (encode i).zeroExtend 64

/-- Whether a command takes the generator lock: INIT, DRAW and SYN do, VC, FMTQ and ENC do not (R95). -/
def Instr.takesLock (i : Instr) : Bool :=
  i.fields.opc = 0x1 || i.fields.opc = 0x2 || i.fields.opc = 0x3

/-- The decoder on a word of the opcode table: bit 0 is the least significant bit, and the bits above `nbits` are
zero. One command is one aligned 64-bit register write (R44), so there are no bytes to order. -/
def decodeTableWord (nbits w : Nat) : Option Instr :=
  match decode (BitVec.ofNat 64 (w % 2 ^ nbits)) with
  | .ok i => some i
  | .error _ => none

end Sys2Proof
end

