-- ==== Sys2Proof/Machine/Registry.lean ====
section
/-! DEFINITION. Machine/Registry.lean: the format registry, a constant table with one row for each concrete format (R81),
and its two functions (R82). -/

namespace Sys2Proof.Machine

/-- The `byte_order` column of R81. -/
inductive SampleOrder where
  | none
  | le
  | be
  | native
  deriving DecidableEq, Repr

/-- A row of R81; `shift` and `mask` are functions of `bitDepth`. -/
structure Row where
  bitDepth : Nat
  byteWidth : Nat
  order : SampleOrder
  signed : Bool
  deriving DecidableEq, Repr

/-- `describe(format)`: the row of a concrete format; a sentinel has none (R81, R82). -/
def describe : Format → Option Row
  | .unknown => Option.none
  | .s8 => some { bitDepth := 8, byteWidth := 1, order := .none, signed := true }
  | .u8 => some { bitDepth := 8, byteWidth := 1, order := .none, signed := false }
  | .s16 => some { bitDepth := 16, byteWidth := 2, order := .native, signed := true }
  | .s16Le => some { bitDepth := 16, byteWidth := 2, order := .le, signed := true }
  | .s16Be => some { bitDepth := 16, byteWidth := 2, order := .be, signed := true }
  | .s24 => some { bitDepth := 24, byteWidth := 4, order := .native, signed := true }
  | .s24Le => some { bitDepth := 24, byteWidth := 4, order := .le, signed := true }
  | .s24Be => some { bitDepth := 24, byteWidth := 4, order := .be, signed := true }
  | .s243Le => some { bitDepth := 24, byteWidth := 3, order := .le, signed := true }
  | .s243Be => some { bitDepth := 24, byteWidth := 3, order := .be, signed := true }
  | .s32 => some { bitDepth := 32, byteWidth := 4, order := .native, signed := true }
  | .s32Le => some { bitDepth := 32, byteWidth := 4, order := .le, signed := true }
  | .s32Be => some { bitDepth := 32, byteWidth := 4, order := .be, signed := true }
  | .auto => Option.none
  | .invalid => Option.none

/-- `is_valid(code)`: true for the thirteen concrete formats (R82). -/
def isValid (f : Format) : Bool := (describe f).isSome

/-- `shift = 64 - bit_depth` (R81). -/
def Row.shift (r : Row) : Nat := 64 - r.bitDepth

/-- `mask = (1 << shift) - 1` (R81). -/
def Row.mask (r : Row) : Word := (1#64 <<< r.shift) - 1#64

/-- Whether samples of a row are stored most significant byte first, `native` replaced by `NATIVE_ORDER` (R43, R83). -/
def Row.bigEndian (native : Config.NativeOrder) (r : Row) : Bool :=
  r.order == .be || (r.order == .native && native == .be)

/-- The `ORDER` field of R83. -/
def SampleOrder.code : SampleOrder → BitVec 2
  | .none => 0
  | .le => 1
  | .be => 2
  | .native => 3

/-- The value FMTQ leaves in `RES`: the packed row of a valid code, 0 for a sentinel (R83). -/
def describeWord (native : Config.NativeOrder) (f : Format) : Word :=
  match describe f with
  | some r =>
    (1#1 ++ 0#3 ++ BitVec.ofBool (r.bigEndian native) ++ BitVec.ofBool r.signed ++ r.order.code
      ++ BitVec.ofNat 8 r.shift ++ BitVec.ofNat 8 r.byteWidth ++ BitVec.ofNat 8 r.bitDepth).zeroExtend 64
  | Option.none => 0

end Sys2Proof.Machine
end

