-- ==== Sys2Proof/Machine/Pack.lean ====
section
/-! DEFINITION. Machine/Pack.lean: the sample format encoder (R108), the triangular dither of one sample (R106), and the
bytes of the frame-buffer space. -/

namespace Sys2Proof.Machine

/-- `v` of R108: the top `bd` bits of the hyper-sample, biased by 128 where the format is unsigned. -/
def sampleBits (r : Row) (h : Word) : Nat :=
  let v := h.toNat / 2 ^ r.shift
  if r.signed then v else (v + 128) % 256

/-- The padding byte above a four-byte S24 sample (R108, R115). -/
def padByte (pad : Config.Pad24) (r : Row) (v : Nat) : Byte :=
  match pad with
  | .zero => 0x00
  | .sign => if v.testBit (r.bitDepth - 1) then 0xFF else 0x00

/-- The bytes of a sample, least significant first, padding byte included (R108 `le`). -/
def sampleBytes (pad : Config.Pad24) (r : Row) (v : Nat) : List Byte :=
  let n := r.bitDepth / 8
  let le := (List.range n).map fun k => BitVec.ofNat 8 (v / 2 ^ (8 * k))
  if r.byteWidth = n + 1 then le ++ [padByte pad r v] else le

/-- `Pack(F, h)` for the row of `F`: `W` bytes, lowest address first (R108). -/
def pack (cfg : Config.Params) (r : Row) (h : Word) : List Byte :=
  let le := sampleBytes cfg.pad24 r (sampleBits r h)
  if r.bigEndian cfg.nativeOrder then le.reverse else le

/-- `tpdf = (r & mask) - (PREV & mask)`, a mathematical integer (R106). -/
def tpdf (row : Row) (r prev : Word) : Int :=
  ((r &&& row.mask).toNat : Int) - ((prev &&& row.mask).toNat : Int)

/-- The hyper-sample of one SYN sample: the dither where `DTH = 1`, else 0 (R106). -/
def hyperSample (row : Row) (dth : Bool) (r prev : Word) : Word :=
  if dth then BitVec.ofInt 64 (tpdf row r prev) else 0

/-- The frame-buffer bytes written so far: addresses strictly rising, all below `2^64` (R40). An address that is not
listed has no value here, so no entry can equal what an unlisted address reads as (log 5). -/
abbrev Memory := List Host.Cell

namespace Memory

/-- The canonical form of a memory. -/
abbrev wf (m : Memory) : Prop :=
  m.Pairwise (fun x y => x.1 < y.1) ∧ ∀ x ∈ m, x.1 < 2 ^ 64

/-- The byte at an address, where one has been written (R41, R195). -/
def readByte : Memory → Nat → Option Byte
  | [], _ => none
  | (k, v) :: rest, a => if a = k then some v else readByte rest a

/-- One single-byte write (R42). -/
def writeByte : Memory → Nat → Byte → Memory
  | [], a, b => [(a, b)]
  | (k, v) :: rest, a, b =>
    if a < k then (a, b) :: (k, v) :: rest
    else if a = k then (k, b) :: rest
    else (k, v) :: writeByte rest a b

/-- What the writes of a `MemWrite` leave when all are performed: `bytes[k]` at `addr + k`, in ascending `k` (R42), modulo
`2^64` (R50). -/
def writeBytes : Memory → Word → List Byte → Memory
  | m, _, [] => m
  | m, addr, b :: rest => writeBytes (m.writeByte addr.toNat b) (addr + 1) rest

end Memory

/-- The single-byte writes that `MemWrite(addr, n, bytes)` issues, in their order: `bytes[k]` to `addr + k` (R42), modulo
`2^64` (R50). -/
def byteWrites : Word → List Byte → List (Word × Byte)
  | _, [] => []
  | addr, b :: rest => (addr, b) :: byteWrites (addr + 1) rest

/-- Whether the platform backs an address with memory (R48, R49). -/
def admitted (platform : List Region) (a : Word) : Bool :=
  platform.any fun r => decide (r.base ≤ a.toNat ∧ a.toNat < r.base + r.size)

/-- The first of the `n` addresses from `addr` that the platform does not admit (R49, R186). -/
def firstNotAdmitted (platform : List Region) : Word → Nat → Option Word
  | _, 0 => none
  | addr, n + 1 => if admitted platform addr then firstNotAdmitted platform (addr + 1) n else some addr

end Sys2Proof.Machine
end

