-- ==== Sys2Proof/Machine/Ops.lean ====
section
/-! DEFINITION. Machine/Ops.lean: the named operations on the state that the meanings share: ports, the fatal fault (R172),
the soft diagnostic (R177), the frame-buffer write (R42), and the accept, acquire and completing steps of a command
(R95, R96, R105, R140). -/

namespace Sys2Proof.Machine

namespace State

/-- Port `p` of the block. -/
def port (s : State) (p : Nat) : Port := s.ports.getD p Port.reset

/-- The state with port `p` replaced; a block has no other ports than its `NPORTS`, so nothing changes for another
index. -/
def setPort (s : State) (p : Nat) (q : Port) : State := { s with ports := s.ports.set p q }

/-- The port whose agent takes this step. -/
def me (s : State) : Port := s.port s.active

/-- The state with the acting port replaced. -/
def setMe (s : State) (q : Port) : State := s.setPort s.active q

/-- The state in which the agent that moves is one of port `p` (log 26). -/
def actingAs (s : State) (p : Nat) : State := { s with active := p }

/-- The state with DitherState and `SEEDED` replaced (R11, R12). -/
def withGenerator (s : State) (d : Dither) (seeded : Bool) : State := { s with dither := d, seeded := seeded }

/-- The byte the frame-buffer space holds at an address, where one has been written (R41; log 5). -/
def readByte (s : State) (a : Nat) : Option Byte := Memory.readByte s.mem a

/-- `FAULT != 0`: the block is halted (R173). -/
def halted (s : State) : Bool := s.fault != 0

/-- The acting port is a port of the block, and the block is not halted: a sequencer step can be enabled (R173). -/
def live (s : State) : Bool := !s.halted && decide (s.active < s.ports.length)

end State

/-- The fatal faults of R171, and their codes. -/
inductive FatalCode where
  | fmtSentinel
  | segZeroDenom
  | illegalCmd
  | busyViolation
  | notSeeded
  deriving DecidableEq, Repr

/-- `FAULT.CODE` (R171). -/
def FatalCode.code : FatalCode → Nat
  | .fmtSentinel => 1
  | .segZeroDenom => 2
  | .illegalCmd => 3
  | .busyViolation => 4
  | .notSeeded => 5

/-- `FAULT`: `CODE` in bits 7:0, the port's index in the eight bits 15:8, bits 63:16 zero (R26). -/
def faultWord (code : FatalCode) (p : Nat) : Word :=
  BitVec.ofNat 64 (p % 256 * 256 + code.code)

/-- `raise Fatal(code, info)` by a step of the acting port: `FAULT` and `FINFO` are written, and nothing else of the
raising step takes effect (R172). A fault that is already there is never overwritten (R173). There is no return from it
but reset (R174). -/
def raiseFatal (code : FatalCode) (info : Word) (s : State) : State :=
  if s.halted then s else { s with fault := faultWord code s.active, finfo := info }

/-- `DIAGSRC`: `CURVE` in bits 1:0, the port's index in the eight bits 15:8, other bits zero (R30). -/
def diagSourceWord (k : Curve) (p : Nat) : Word :=
  BitVec.ofNat 64 (p % 256 * 256 + k.code.toNat)

/-- `Diag(curve, p, w)` by the acting port, one atomic step (R177). -/
def diag (k : Curve) (w : Word) (s : State) : State :=
  { s with diagCnt := s.diagCnt + 1, diagVol := w, diagSrc := diagSourceWord k s.active }

/-- The port with the byte writes that are left of its `MemWrite` replaced. -/
def Port.withOut (q : Port) (out : List (Word × Byte)) : Port := { q with seq := { q.seq with out := out } }

/-- The port with its mark that its `MemWrite` has begun replaced (log 28). -/
def Port.withSent (q : Port) (sent : Bool) : Port := { q with seq := { q.seq with sent := sent } }

/-- The sequencer of the acting port performs the next single-byte write of its `MemWrite`: one byte of memory, atomically
(R9, R42, R46). -/
def writeNextByte (s : State) : State :=
  match s.me.seq.out with
  | [] => s
  | (a, b) :: rest => { s.setMe (s.me.withOut rest) with mem := Memory.writeByte s.mem a.toNat b }

/-- The step in which the acting port's sequencer begins `MemWrite(addr, n, bytes)`, its other effects having given `s`: the
first of the single-byte writes is performed, and the others are left for its next steps, in ascending order (R42, R46;
log 18); or, where the platform does not admit one of the addresses, the port is stuck and the step does not happen (R49,
R186; log 10). -/
def memWrite (addr : Word) (bytes : List Byte) (s : State) : Outcome State :=
  match firstNotAdmitted s.platform addr bytes.length with
  | some a => .fault (.stuck a)
  | none => .next (writeNextByte (s.setMe (s.me.withOut (byteWrites addr bytes))))

/-- A port has begun a `MemWrite` and not ended it: the sample it writes is in memory in part. -/
def Port.writing (q : Port) : Bool := !q.seq.out.isEmpty

/-- Some port is between two byte writes of one sample (R176). -/
def State.midSample (s : State) : Bool := s.ports.any Port.writing

/-- An outcome with its next state changed. -/
def thenNext (f : State → State) : Outcome State → Outcome State
  | .next s => .next (f s)
  | .fault r => .fault r
  | .refused r => .refused r

/-- The sequencer of a port that goes to a phase. -/
def Port.withPhase (q : Port) (ph : Phase) : Port := { q with seq := { q.seq with phase := ph } }

/-- The port that has accepted a command: `CMD <- word`, `BUSY <- 1` and the first phase (R96, R105, R140). -/
def Port.accepting (i : Instr) (ph : Phase) (q : Port) : Port :=
  { q with cmd := commandValue i, seq := { q.seq with phase := ph, op := some i } }

/-- The port whose command has completed: `BUSY <- 0`, `phase <- IDLE` (R96). -/
def Port.completed (q : Port) : Port := { q with seq := { q.seq with phase := .idle, op := none } }

/-- The accepting step of a command: `WAITLOCK` where it takes the lock, else `RUN` (R95, R96, R140). -/
def accept (i : Instr) (s : State) : State :=
  s.setMe (s.me.accepting i (if i.takesLock then .waitLock else .run))

/-- The acquire step (R95): enabled only while the lock is free, else the port is held and nothing changes (R186). The
lock is taken; a command other than INIT then faults while `SEEDED = 0`, with the lock left held (R98, R172; log 9); else
the port loads what its command needs and runs. -/
def acquire (i : Instr) (load : Port → Port) (s : State) : State :=
  match s.lock with
  | .held _ => s
  | .free =>
    if !s.seeded && i != .init then raiseFatal .notSeeded (commandValue i) { s with lock := .held s.active }
    else { s.setMe ((load s.me).withPhase .run) with lock := .held s.active }

/-- The completing step's last line for a command that holds the lock: `LOCK <- FREE ; BUSY <- 0 ; phase <- IDLE`
(R95, R96). -/
def completeLocked (s : State) : State :=
  { s.setMe s.me.completed with lock := .free }

/-- The completing step's last line for a command that takes no lock: `BUSY <- 0 ; phase <- IDLE` (R140). -/
def complete (s : State) : State := s.setMe s.me.completed

/-- `RES <- v` (R22). -/
def writeRes (v : Word) (s : State) : State := s.setMe { s.me with res := v }

/-- The step a command takes in the phase its port is in, where the block can move at all (R173): the accepting step while
`IDLE`, the acquire step while `WAITLOCK`, the command's own steps in `RUN` (log 26). -/
def byPhase (s : State) (onAccept onAcquire onRun : State → Outcome State) : Outcome State :=
  if s.live then
    match s.me.seq.phase with
    | .idle => onAccept s
    | .waitLock => onAcquire s
    | .run => onRun s
  else .next s

/-- A command whose whole effect is one run step under the lock: INIT and DRAW (R96, R97). -/
def lockedCommand (i : Instr) (effect : State → State) (s : State) : Outcome State :=
  byPhase s (fun s => .next (accept i s)) (fun s => .next (acquire i id s)) (fun s => .next (completeLocked (effect s)))

/-- A command that takes no lock and whose whole effect is one run step: VC, FMTQ and ENC (R83, R134, R140). Its port is
never in `WAITLOCK`, where no step of it is enabled. -/
def plainCommand (onAccept onRun : State → Outcome State) (s : State) : Outcome State :=
  byPhase s onAccept .next onRun

/-- `raise Fatal(FMT_SENTINEL, code)` in the accepting step of SYN or ENC with a sentinel format (R122 to R124). No
command is issued, so no later step of it is ever enabled. -/
def rejectSentinel (f : Format) (s : State) : Outcome State :=
  byPhase s (fun s => .next (raiseFatal .fmtSentinel (f.code.zeroExtend 64) s)) .next .next

end Sys2Proof.Machine
end

