-- ==== Sys2Proof/Machine/Flags.lean ====
section
/-! DEFINITION. Machine/Flags.lean: the block has no arithmetic flags (R33); its status bits are those of `STATUS`, computed
here from the state that R25 defines each of them by. -/

namespace Sys2Proof.Machine

/-- `STATUS[0]`, `BUSY`: 1 from the step that accepts a command to the step that completes it (R25; log 14). -/
def State.busy (s : State) (p : Nat) : Bool := (s.port p).seq.phase != .idle

/-- `STATUS[1]`, `LOCKWAIT`: `SEQ[p].phase = WAITLOCK` (R25). -/
def State.lockWait (s : State) (p : Nat) : Bool := (s.port p).seq.phase == .waitLock

/-- `STATUS[2]`, `LOCKHELD`: `LOCK = HELD(p)` (R13, R25). -/
def State.lockHeld (s : State) (p : Nat) : Bool := s.lock == .held p

/-- `STATUS` of port `p`; the reserved bits read 0 (R25). -/
def statusWord (s : State) (p : Nat) : Word :=
  (BitVec.ofBool s.halted ++ BitVec.ofBool s.seeded ++ 0#5 ++ BitVec.ofBool (s.lockHeld p)
    ++ BitVec.ofBool (s.lockWait p) ++ BitVec.ofBool (s.busy p)).zeroExtend 64

end Sys2Proof.Machine
end

