-- ==== Sys2Proof/Machine/Operands.lean ====
section
/-! DEFINITION. Machine/Operands.lean: the register window of a port (R34): what each offset reads as, and what a write of
each register but `CMD` stores (R14, R35). -/

namespace Sys2Proof.Machine

/-- The byte offset of a slot in its window (R34). -/
def Slot.offset (k : Slot) : Word := (k ++ 0#3).zeroExtend 64

/-- `MAXDB` and `MINDB` as mathematical integers (R20, R21, R148). -/
def Port.maxInt (q : Port) : Int := q.maxdb.toInt
def Port.minInt (q : Port) : Int := q.mindb.toInt

/-- `RegRead(p, off)` (R34): a narrower register reads zero-extended, `MAXDB` and `MINDB` sign-extended (R14), and a
reserved offset reads 0 (R35). A read has no effect (R36). -/
def regRead (s : State) (p : Nat) (k : Slot) : Word :=
  let q := s.port p
  match k.toNat with
  | 0 => q.cmd
  | 1 => statusWord s p
  | 2 => q.buf
  | 3 => q.nfr.zeroExtend 64
  | 4 => q.tok
  | 5 => q.seed
  | 6 => q.vol
  | 7 => q.maxdb.signExtend 64
  | 8 => q.mindb.signExtend 64
  | 9 => q.res
  | 10 => q.hs
  | 16 => s.fault
  | 17 => s.finfo
  | 18 => s.diagCnt
  | 19 => s.diagVol
  | 20 => s.diagSrc
  | _ => 0

/-- A write to a register other than `CMD` of an idle port: a register narrower than 64 bits keeps the low bits (R14), and
a write to a read-only or reserved offset changes nothing (R35). -/
def Port.writeSlot (q : Port) (k : Slot) (v : Word) : Port :=
  match k.toNat with
  | 2 => { q with buf := v }
  | 3 => { q with nfr := v.setWidth 32 }
  | 4 => { q with tok := v }
  | 5 => { q with seed := v }
  | 6 => { q with vol := v }
  | 7 => { q with maxdb := v.setWidth 32 }
  | 8 => { q with mindb := v.setWidth 32 }
  | 9 => { q with res := v }
  | 10 => { q with hs := v }
  | _ => q

end Sys2Proof.Machine
end

