-- ==== Sys2Proof/Machine/Dither.lean ====
section
/-! DEFINITION. Machine/Dither.lean: the meanings of INIT and DRAW (R96, R97). -/

namespace Sys2Proof.Machine

/-- The run step of INIT before its completion: `init(x[p][SEED]) ; SEEDED <- 1` (R96). -/
def seedGenerator (s : State) : State := s.withGenerator (Dither.init s.me.seed) true

/-- The run step of DRAW before its completion: `x[p][RES] <- draw()` (R97). -/
def drawToRes (s : State) : State := (writeRes s.dither.value s).withGenerator s.dither.next s.seeded

/-- `INIT` (R96). -/
def execInit (s : State) : Outcome State := lockedCommand .init seedGenerator s

/-- `DRAW` (R97). -/
def execDraw (s : State) : Outcome State := lockedCommand .draw drawToRes s

end Sys2Proof.Machine
end

