-- ==== Sys2Proof/Machine/Encoder.lean ====
section
/-! DEFINITION. Machine/Encoder.lean: the meaning of each ENC row: one hyper-sample packed at `BUF` (R134). -/

namespace Sys2Proof.Machine

/-- The run step of ENC: `MemWrite(x[p][BUF], W, Pack(F, x[p][HS]))`, one byte write at each part of it (R42, R46; log 18),
and, once all are performed, the completion (R134, R51; log 28). -/
def encRun (row : Row) (s : State) : Outcome State :=
  if s.me.writing then .next (writeNextByte s)
  else if s.me.seq.sent then .next (complete (s.setMe (s.me.withSent false)))
  else memWrite s.me.buf (pack s.cfg row s.me.hs) (s.setMe (s.me.withSent true))

/-- `ENC.<F>` (R134): a sentinel format is fatal in the accepting step (R122 to R124). -/
def encodeSample (i : Instr) (f : Format) (s : State) : Outcome State :=
  match describe f with
  | none => rejectSentinel f s
  | some row => plainCommand (fun s => .next (accept i s)) (encRun row) s

/-- `ENC.UNKNOWN` (R122). -/
def execEncUnknown (s : State) : Outcome State := encodeSample .encUnknown .unknown s

/-- `ENC.S8` (R109). -/
def execEncS8 (s : State) : Outcome State := encodeSample .encS8 .s8 s

/-- `ENC.U8` (R110). -/
def execEncU8 (s : State) : Outcome State := encodeSample .encU8 .u8 s

/-- `ENC.S16` (R111). -/
def execEncS16 (s : State) : Outcome State := encodeSample .encS16 .s16 s

/-- `ENC.S16_LE` (R112). -/
def execEncS16Le (s : State) : Outcome State := encodeSample .encS16Le .s16Le s

/-- `ENC.S16_BE` (R113). -/
def execEncS16Be (s : State) : Outcome State := encodeSample .encS16Be .s16Be s

/-- `ENC.S24` (R114). -/
def execEncS24 (s : State) : Outcome State := encodeSample .encS24 .s24 s

/-- `ENC.S24_LE` (R115). -/
def execEncS24Le (s : State) : Outcome State := encodeSample .encS24Le .s24Le s

/-- `ENC.S24_BE` (R116). -/
def execEncS24Be (s : State) : Outcome State := encodeSample .encS24Be .s24Be s

/-- `ENC.S24_3LE` (R117). -/
def execEncS243Le (s : State) : Outcome State := encodeSample .encS243Le .s243Le s

/-- `ENC.S24_3BE` (R118). -/
def execEncS243Be (s : State) : Outcome State := encodeSample .encS243Be .s243Be s

/-- `ENC.S32` (R119). -/
def execEncS32 (s : State) : Outcome State := encodeSample .encS32 .s32 s

/-- `ENC.S32_LE` (R120). -/
def execEncS32Le (s : State) : Outcome State := encodeSample .encS32Le .s32Le s

/-- `ENC.S32_BE` (R121). -/
def execEncS32Be (s : State) : Outcome State := encodeSample .encS32Be .s32Be s

/-- `ENC.AUTO` (R123). -/
def execEncAuto (s : State) : Outcome State := encodeSample .encAuto .auto s

/-- `ENC.INVALID` (R124). -/
def execEncInvalid (s : State) : Outcome State := encodeSample .encInvalid .invalid s

end Sys2Proof.Machine
end

