-- ==== Sys2Proof/Machine/Query.lean ====
section
/-! DEFINITION. Machine/Query.lean: the meaning of each FMTQ row: the description of a format in `RES` (R83). -/

namespace Sys2Proof.Machine

/-- `FMTQ.<F>` (R83); a sentinel is no fault here and answers 0 (R82). -/
def queryFormat (i : Instr) (f : Format) (s : State) : Outcome State :=
  plainCommand (fun s => .next (accept i s))
    (fun s => .next (complete (writeRes (describeWord s.cfg.nativeOrder f) s))) s

/-- `FMTQ.UNKNOWN` (R83). -/
def execFmtqUnknown (s : State) : Outcome State := queryFormat .fmtqUnknown .unknown s

/-- `FMTQ.S8` (R83). -/
def execFmtqS8 (s : State) : Outcome State := queryFormat .fmtqS8 .s8 s

/-- `FMTQ.U8` (R83). -/
def execFmtqU8 (s : State) : Outcome State := queryFormat .fmtqU8 .u8 s

/-- `FMTQ.S16` (R83). -/
def execFmtqS16 (s : State) : Outcome State := queryFormat .fmtqS16 .s16 s

/-- `FMTQ.S16_LE` (R83). -/
def execFmtqS16Le (s : State) : Outcome State := queryFormat .fmtqS16Le .s16Le s

/-- `FMTQ.S16_BE` (R83). -/
def execFmtqS16Be (s : State) : Outcome State := queryFormat .fmtqS16Be .s16Be s

/-- `FMTQ.S24` (R83). -/
def execFmtqS24 (s : State) : Outcome State := queryFormat .fmtqS24 .s24 s

/-- `FMTQ.S24_LE` (R83). -/
def execFmtqS24Le (s : State) : Outcome State := queryFormat .fmtqS24Le .s24Le s

/-- `FMTQ.S24_BE` (R83). -/
def execFmtqS24Be (s : State) : Outcome State := queryFormat .fmtqS24Be .s24Be s

/-- `FMTQ.S24_3LE` (R83). -/
def execFmtqS243Le (s : State) : Outcome State := queryFormat .fmtqS243Le .s243Le s

/-- `FMTQ.S24_3BE` (R83). -/
def execFmtqS243Be (s : State) : Outcome State := queryFormat .fmtqS243Be .s243Be s

/-- `FMTQ.S32` (R83). -/
def execFmtqS32 (s : State) : Outcome State := queryFormat .fmtqS32 .s32 s

/-- `FMTQ.S32_LE` (R83). -/
def execFmtqS32Le (s : State) : Outcome State := queryFormat .fmtqS32Le .s32Le s

/-- `FMTQ.S32_BE` (R83). -/
def execFmtqS32Be (s : State) : Outcome State := queryFormat .fmtqS32Be .s32Be s

/-- `FMTQ.AUTO` (R83). -/
def execFmtqAuto (s : State) : Outcome State := queryFormat .fmtqAuto .auto s

/-- `FMTQ.INVALID` (R83). -/
def execFmtqInvalid (s : State) : Outcome State := queryFormat .fmtqInvalid .invalid s

end Sys2Proof.Machine
end

