-- ==== Sys2Proof/Machine/Synth.lean ====
section
/-! DEFINITION. Machine/Synth.lean: the frame synthesizer: the steps of SYN (R105, R106), with the lock held for the whole
command or for each sample as `LOCK_GRAIN` says (R95, R137), and the meaning of each SYN row. -/

namespace Sys2Proof.Machine

/-- The number of samples of a SYN: `2 * NFR` (R105). -/
def Port.samples (q : Port) : Nat := 2 * q.nfr.toNat

/-- Whether the range `BUF + 2 * NFR * W` of a SYN stays within `2^64` (R50). -/
def Port.rangeFits (q : Port) (width : Nat) : Bool :=
  decide (q.buf.toNat + q.samples * width ≤ 2 ^ 64)

/-- `CUR <- BUF ; SIDX <- 0 ; PREV <- TOK` (R105). -/
def Port.loadStream (q : Port) : Port :=
  { q with seq := { q.seq with cur := q.buf, sidx := 0, prev := q.tok } }

/-- The step's move of the sequencer past one sample of `width` bytes whose draw was `r` (R106, steps 6 and 7). -/
def Port.pastSample (q : Port) (width : Nat) (r : Word) : Port :=
  { q with
    seq := { q.seq with cur := q.seq.cur + BitVec.ofNat 64 width, sidx := q.seq.sidx + 1, prev := r } }

/-- The accepting step of a SYN with a concrete format: refused where its range passes `2^64` (R50; log 11). With
`LOCK_GRAIN = SAMPLE` the stream is loaded here (R137). -/
def synAccept (i : Instr) (row : Row) (s : State) : Outcome State :=
  if s.me.rangeFits row.byteWidth then
    match s.cfg.lockGrain with
    | .call => .next (accept i s)
    | .sample => .next (accept i (s.setMe s.me.loadStream))
  else .refused (.bufferWraps s.me.buf s.me.nfr row.byteWidth)

/-- The `done` step: `TOK <- PREV` and the completion of the command (R105, R126). -/
def synTokens (s : State) : State := s.setMe { s.me with tok := s.me.seq.prev }

/-- Whether a SYN under `LOCK_GRAIN = SAMPLE` has made its last sample (R137; log 15). -/
def Port.samplesDone (q : Port) : Bool := q.seq.sidx != 0 && q.seq.sidx.toNat == q.samples

/-- The step of a SYN in `WAITLOCK`. With `LOCK_GRAIN = CALL` the acquire step, which loads the stream (R105). With
`LOCK_GRAIN = SAMPLE` the acquire step of the next sample, or, after the last sample, the `done` step, which needs no lock
(R137; log 15). -/
def synWait (i : Instr) (s : State) : Outcome State :=
  match s.cfg.lockGrain with
  | .call => .next (acquire i Port.loadStream s)
  | .sample => if s.me.samplesDone then .next (complete (synTokens s)) else .next (acquire i id s)

/-- The bytes one `sample` step writes (R106, steps 2 to 6). -/
def synBytes (row : Row) (dth : Bool) (s : State) : List Byte :=
  pack s.cfg row (hyperSample row dth s.dither.value s.me.seq.prev)

/-- The draw of a `sample` step (R106, step 2), and, with `LOCK_GRAIN = SAMPLE`, the mark that the lock is this sample's
(R137; log 28). -/
def beginSample (s : State) : State :=
  (s.setMe (s.me.withSent (s.cfg.lockGrain == .sample))).withGenerator s.dither.next s.seeded

/-- The end of a `sample` step, with its last byte write: `CUR`, `SIDX` and `PREV` move past the sample (R106, step 7). The
draw `r` still stands in DitherState, since its port holds the lock (R91, R95; log 18). -/
def endSample (row : Row) (s : State) : State :=
  if s.me.writing then s else s.setMe (s.me.pastSample row.byteWidth s.dither.d)

/-- The release after a sample, with `LOCK_GRAIN = SAMPLE` (R137): the lock is free, and the port waits for it again (log 15,
log 28). -/
def releaseSample (s : State) : State :=
  { s.setMe ((s.me.withSent false).withPhase .waitLock) with lock := .free }

/-- The step of a SYN in `RUN`: `sample` while `SIDX < 2 * NFR`, one byte write at each part of it (R42, R46; log 18), and
`done` when `SIDX = 2 * NFR`; with `LOCK_GRAIN = SAMPLE` the release of the lock after the last byte of a sample (R137). No
step is enabled in a state with `SIDX` beyond `2 * NFR`, which no run reaches (R105). -/
def synRun (row : Row) (dth : Bool) (s : State) : Outcome State :=
  if s.me.writing then .next (endSample row (writeNextByte s))
  else if s.me.seq.sent then .next (releaseSample s)
  else if s.me.seq.sidx.toNat < s.me.samples then
    thenNext (endSample row) (memWrite s.me.seq.cur (synBytes row dth s) (beginSample s))
  else if s.me.seq.sidx.toNat = s.me.samples then .next (completeLocked (synTokens s))
  else .next s

/-- `SYN.<F>` (R105): a sentinel format is fatal before anything else (R122 to R124). -/
def synthesize (i : Instr) (f : Format) (dth : Bool) (s : State) : Outcome State :=
  match describe f with
  | none => rejectSentinel f s
  | some row => byPhase s (synAccept i row) (synWait i) (synRun row dth)

/-- `SYN.UNKNOWN` (R122). -/
def execSynUnknown (dth : Bool) (s : State) : Outcome State := synthesize (.synUnknown dth) .unknown dth s

/-- `SYN.S8` (R109). -/
def execSynS8 (dth : Bool) (s : State) : Outcome State := synthesize (.synS8 dth) .s8 dth s

/-- `SYN.U8` (R110). -/
def execSynU8 (dth : Bool) (s : State) : Outcome State := synthesize (.synU8 dth) .u8 dth s

/-- `SYN.S16` (R111). -/
def execSynS16 (dth : Bool) (s : State) : Outcome State := synthesize (.synS16 dth) .s16 dth s

/-- `SYN.S16_LE` (R112). -/
def execSynS16Le (dth : Bool) (s : State) : Outcome State := synthesize (.synS16Le dth) .s16Le dth s

/-- `SYN.S16_BE` (R113). -/
def execSynS16Be (dth : Bool) (s : State) : Outcome State := synthesize (.synS16Be dth) .s16Be dth s

/-- `SYN.S24` (R114). -/
def execSynS24 (dth : Bool) (s : State) : Outcome State := synthesize (.synS24 dth) .s24 dth s

/-- `SYN.S24_LE` (R115). -/
def execSynS24Le (dth : Bool) (s : State) : Outcome State := synthesize (.synS24Le dth) .s24Le dth s

/-- `SYN.S24_BE` (R116). -/
def execSynS24Be (dth : Bool) (s : State) : Outcome State := synthesize (.synS24Be dth) .s24Be dth s

/-- `SYN.S24_3LE` (R117). -/
def execSynS243Le (dth : Bool) (s : State) : Outcome State := synthesize (.synS243Le dth) .s243Le dth s

/-- `SYN.S24_3BE` (R118). -/
def execSynS243Be (dth : Bool) (s : State) : Outcome State := synthesize (.synS243Be dth) .s243Be dth s

/-- `SYN.S32` (R119). -/
def execSynS32 (dth : Bool) (s : State) : Outcome State := synthesize (.synS32 dth) .s32 dth s

/-- `SYN.S32_LE` (R120). -/
def execSynS32Le (dth : Bool) (s : State) : Outcome State := synthesize (.synS32Le dth) .s32Le dth s

/-- `SYN.S32_BE` (R121). -/
def execSynS32Be (dth : Bool) (s : State) : Outcome State := synthesize (.synS32Be dth) .s32Be dth s

/-- `SYN.AUTO` (R123). -/
def execSynAuto (dth : Bool) (s : State) : Outcome State := synthesize (.synAuto dth) .auto dth s

/-- `SYN.INVALID` (R124). -/
def execSynInvalid (dth : Bool) (s : State) : Outcome State := synthesize (.synInvalid dth) .invalid dth s

end Sys2Proof.Machine
end

