-- ==== Sys2Proof/Machine/Float.lean ====
section
/-! DEFINITION. Machine/Float.lean: the binary64 operations of R8 on bit patterns, each computed exactly and rounded once
to nearest, ties to even, with subnormals kept; the comparisons; and `LOG2` (R146). -/

namespace Sys2Proof.Machine.F64

/-- What a binary64 pattern stands for. `fin neg m e` is `m * 2^e`, negated where `neg`. -/
inductive Val where
  | nan
  | inf (neg : Bool)
  | fin (neg : Bool) (m : Nat) (e : Int)
  deriving DecidableEq, Repr

/-- The sign bit of a pattern. -/
def signBit (w : Word) : Bool := w.getLsbD 63

/-- The value of a pattern: 1 sign bit, 11 exponent bits with bias 1023, 52 fraction bits (G5). -/
def unpack (w : Word) : Val :=
  let ex := (w.extractLsb' 52 11).toNat
  let fr := (w.extractLsb' 0 52).toNat
  if ex = 2047 then (if fr = 0 then .inf (signBit w) else .nan)
  else if ex = 0 then .fin (signBit w) fr (if fr = 0 then 0 else -1074)
  else .fin (signBit w) (fr + 2 ^ 52) ((ex : Int) - 1075)

/-- The NaN an invalid operation gives. No command reaches one (R155; log 19). -/
def quietNaN : Word := 0x7FF8000000000000#64

/-- The pattern of an infinity. -/
def infinity (neg : Bool) : Word := if neg then 0xFFF0000000000000#64 else 0x7FF0000000000000#64

/-- The pattern of a zero. -/
def zero (neg : Bool) : Word := if neg then 0x8000000000000000#64 else 0#64

/-- How many binary digits a number has. -/
def bitLength (m : Nat) : Nat := if m = 0 then 0 else m.log2 + 1

/-- `m / 2^k` rounded to nearest, ties to even. -/
def shiftRightEven (m k : Nat) : Nat :=
  let q := m / 2 ^ k
  let r := m % 2 ^ k
  if 2 * r > 2 ^ k ∨ (2 * r = 2 ^ k ∧ q % 2 = 1) then q + 1 else q

/-- The binary64 pattern nearest to `m * 2^e`, ties to even, negated where `neg` (R8). The exponent of the last place is
at least -1074, so subnormals are kept; a value past the largest finite one becomes an infinity. -/
def round (neg : Bool) (m : Nat) (e : Int) : Word :=
  if m = 0 then zero neg
  else
    let place := max (e + bitLength m - 53) (-1074)
    let q := if place ≤ e then m * 2 ^ (e - place).toNat else shiftRightEven m (place - e).toNat
    let magnitude := (place + 1074).toNat * 2 ^ 52 + q
    if 2047 * 2 ^ 52 ≤ magnitude then infinity neg
    else BitVec.ofNat 64 (magnitude + (if neg then 2 ^ 63 else 0))

/-- `i2f(n)` (R8). -/
def i2f (n : Int) : Word := round (decide (n < 0)) n.natAbs 0

/-- The negation of a pattern: its sign bit flipped. -/
def fneg (x : Word) : Word := x ^^^ 0x8000000000000000#64

/-- The mathematical integer `±m * 2^(e - low)` for `low ≤ e`. -/
def scaled (neg : Bool) (m : Nat) (e low : Int) : Int :=
  let n : Int := (m : Int) * 2 ^ (e - low).toNat
  if neg then -n else n

/-- `fadd` (R8). An exact zero sum of two values of different sign is `+0`. -/
def fadd (x y : Word) : Word :=
  match unpack x, unpack y with
  | .nan, _ => quietNaN
  | _, .nan => quietNaN
  | .inf s, .inf t => if s = t then infinity s else quietNaN
  | .inf s, .fin _ _ _ => infinity s
  | .fin _ _ _, .inf t => infinity t
  | .fin s m e, .fin t n f =>
    let low := min e f
    let sum := scaled s m e low + scaled t n f low
    if sum = 0 then zero (s && t) else round (decide (sum < 0)) sum.natAbs low

/-- `fsub` (R8): the sum with the second operand negated. -/
def fsub (x y : Word) : Word := fadd x (fneg y)

/-- `fmul` (R8). -/
def fmul (x y : Word) : Word :=
  match unpack x, unpack y with
  | .nan, _ => quietNaN
  | _, .nan => quietNaN
  | .inf s, .inf t => infinity (s != t)
  | .inf s, .fin t n _ => if n = 0 then quietNaN else infinity (s != t)
  | .fin s m _, .inf t => if m = 0 then quietNaN else infinity (s != t)
  | .fin s m e, .fin t n f => round (s != t) (m * n) (e + f)

/-- How many places the dividend is shifted left, so that the quotient of any two significands has more digits than a
result keeps. -/
def quotientPlaces : Nat := 120

/-- `fdiv` (R8). The quotient is computed to more digits than are kept, and a remainder is recorded in one digit below
them, so that the one rounding is right. -/
def fdiv (x y : Word) : Word :=
  match unpack x, unpack y with
  | .nan, _ => quietNaN
  | _, .nan => quietNaN
  | .inf _, .inf _ => quietNaN
  | .inf s, .fin t _ _ => infinity (s != t)
  | .fin s _ _, .inf t => zero (s != t)
  | .fin s m e, .fin t n f =>
    if n = 0 then (if m = 0 then quietNaN else infinity (s != t))
    else
      let dividend := m * 2 ^ quotientPlaces
      let sticky := if dividend % n = 0 then 0 else 1
      round (s != t) (2 * (dividend / n) + sticky) (e - f - quotientPlaces - 1)

/-- Whether a pattern is a NaN. -/
def isNaN (x : Word) : Bool := unpack x == .nan

/-- The place of a pattern that is no NaN in the order of binary64 values; both zeros have place 0. -/
def key (x : Word) : Int :=
  let magnitude : Int := (x.extractLsb' 0 63).toNat
  if signBit x then -magnitude else magnitude

/-- `x < y`: false where either is a NaN (R8). -/
def lt (x y : Word) : Bool := !isNaN x && !isNaN y && decide (key x < key y)

/-- `x <= y`: false where either is a NaN (R8). -/
def le (x y : Word) : Bool := !isNaN x && !isNaN y && decide (key x ≤ key y)

/-- `x == y`: false where either is a NaN, and the two zeros are equal (R8). -/
def eq (x y : Word) : Bool := !isNaN x && !isNaN y && decide (key x = key y)

/-- How many binary digits after the point `log2Digits` computes. -/
def log2Places : Nat := 140

/-- How many binary digits after the point its repeated squaring carries. -/
def log2Precision : Nat := 240

/-- The first `k` binary digits of the base-2 logarithm of `z / 2^log2Precision`, a number in `[1, 2)`, after those in
`acc`: square, and the digit is whether the square reached 2. -/
def log2Digits : Nat → Nat → Nat → Nat
  | 0, _, acc => acc
  | k + 1, z, acc =>
    let sq := z * z / 2 ^ log2Precision
    if 2 ^ (log2Precision + 1) ≤ sq then log2Digits k (sq / 2) (2 * acc + 1) else log2Digits k sq (2 * acc)

/-- `-log2(m * 2^e)` to `log2Places` digits after the point, for a value `m * 2^e` below 1 that is no power of two: the real
value lies between one unit of the last digit below this and one above. The digits of the fraction are those of the
logarithm of `m`, rounded down. -/
def negLog2Floor (m : Nat) (e : Int) : Nat :=
  let top := bitLength m - 1
  let whole := (-(e + top)).toNat
  whole * 2 ^ log2Places - log2Digits log2Places (m * 2 ^ (log2Precision - top)) 0 - 1

/-- The binary64 results that R146 (P3) admits for a logarithm: the two neighbours of the real value, `nearer` zero and
`farther`, and, where the real value is within half a unit of a power of two, the neighbour of that power too, whose own
unit is smaller. -/
structure Log2Candidates where
  nearer : Word
  farther : Word
  belowPower : Option Word
  deriving DecidableEq, Repr

/-- The results (P3) admits for a logarithm whose negation lies between `y - 1` and `y + 1` in units of `2^-log2Places`
(log 2). Where a binary64 value lies between the two bounds, that value is within a unit of the real logarithm whichever
side of it the logarithm is on, and it alone is taken. -/
def log2Candidates (y : Nat) : Log2Candidates :=
  let drop := bitLength (y - 1) - 53
  let q := (y - 1) / 2 ^ drop
  let e : Int := (drop : Int) - log2Places
  let farther := round true (q + 1) e
  if y + 1 ≤ (q + 1) * 2 ^ drop then
    { nearer := round true q e
      farther := farther
      belowPower :=
        if q = 2 ^ 52 ∧ y + 1 ≤ q * 2 ^ drop + 2 ^ (drop - 1) then some (round true (2 ^ 53 - 1) (e - 1)) else none }
  else { nearer := farther, farther := farther, belowPower := none }

/-- `LOG2` (R146) on `(0, 1]`, the only arguments it is called with (R144): exact on the powers of two (P2), elsewhere a
result that (P3) admits, which of them being free (log 2). R146 states no value for any other argument and no command
asks for one: a free value. -/
def log2 (x : Word) : Word :=
  match unpack x with
  | .fin false m e =>
    let top := bitLength m - 1
    if m ≠ 0 ∧ m = 2 ^ top ∧ e + top ≤ 0 then i2f (e + top)
    else if m ≠ 0 ∧ e + top < 0 then
      let c := log2Candidates (negLog2Floor m e)
      match (Config.log2Pick x).toNat with
      | 0 => c.nearer
      | 1 => c.farther
      | _ => c.belowPower.getD c.nearer
    else Config.log2Outside x
  | _ => Config.log2Outside x

end Sys2Proof.Machine.F64
end

