-- ==== Sys2Proof/Machine/Curve.lean ====
section
/-! DEFINITION. Machine/Curve.lean: the three volume curves (R141 to R149), each operation in the order R148 fixes. -/

namespace Sys2Proof.Machine

open F64

/-- The pattern of `-144.0`, the mute sentinel (R141). -/
def muteSentinel : Word := 0xC062000000000000#64

/-- The patterns of the constants of R141 to R147. -/
def fp0 : Word := 0#64
def fp1 : Word := i2f 1
def fp2 : Word := i2f 2
def fp30 : Word := i2f 30
def fpMinus30 : Word := i2f (-30)
def fp1000 : Word := i2f 1000

/-- `in_range(vol)` (R141). -/
def inRange (vol : Word) : Bool := le vol fp0 && le fpMinus30 vol

/-- `muted(vol)` (R141). -/
def muted (vol : Word) : Bool := eq vol muteSentinel

/-- `out_of_range(vol)` (R141). -/
def outOfRange (vol : Word) : Bool := !inRange vol && !muted vol

/-- What a curve gives: a result and whether to raise a diagnostic, or the segment whose denominator is zero
(R140, R149). -/
inductive CurveResult where
  | value (res : Word) (diag : Bool)
  | zeroDenominator (segment : Nat)
  deriving DecidableEq, Repr

/-- The fallback of R142: `min_db`, with a diagnostic unless the input is the mute sentinel. -/
def fallback (vol : Word) (mn : Int) : CurveResult := .value (i2f mn) (outOfRange vol)

/-- The Flat curve on an in-range `vol`: `((max_db - min_db) * (30 + vol)) / 30 + min_db` (R143). -/
def flatValue (vol : Word) (mx mn : Int) : Word :=
  fadd (fdiv (fmul (i2f (mx - mn)) (fadd fp30 vol)) fp30) (i2f mn)

/-- `flat(vol, mx, mn)` (R143). -/
def flat (vol : Word) (mx mn : Int) : CurveResult :=
  if inRange vol then .value (flatValue vol mx mn) false else fallback vol mn

/-- `pct = 1 - vol / -30` (R144). -/
def taperPct (vol : Word) : Word := fsub fp1 (fdiv vol fpMinus30)

/-- The Tapered curve on an in-range `vol`: the logarithmic curve, the straight line where it would fall below it, and
the clamp to `max_db` from above (R144). -/
def taperedValue (vol : Word) (mx mn : Int) : Word :=
  let pct := taperPct vol
  if le pct fp0 then i2f mn
  else
    let line := fadd (i2f mn) (fmul (i2f (mx - mn)) pct)
    let tap := fadd (i2f mx) (fmul fp1000 (log2 pct))
    let res := if lt tap line then line else tap
    if lt (i2f mx) res then i2f mx else res

/-- `tapered(vol, mx, mn)` (R144). -/
def tapered (vol : Word) (mx mn : Int) : CurveResult :=
  if inRange vol then .value (taperedValue vol mx mn) false else fallback vol mn

/-- `first_slope` for a range `Rf` (R147). -/
def firstSlope (rf : Word) : Word :=
  let fs := fdiv (fsub fp0 rf) fp2
  if lt fs (fsub fp0 rf) then rf else fs

/-- The segments of R147 as pairs of an x-intercept and a y-value at `x = -30`. -/
def segments (rf : Word) : List (Word × Word) :=
  let fs := firstSlope rf
  [(fp0, fs), (i2f (-5), fsub fs (fdiv (fadd rf fs) fp2)), (i2f (-17), fsub fp0 rf)]

/-- The loop of R147 over the segments from index `i`, keeping the most negative `t`; or the index of a segment whose
denominator `-30 - x_i` is zero (R149). -/
def segmentLoop (vol : Word) : List (Word × Word) → Nat → Word → Except Nat Word
  | [], _, acc => .ok acc
  | (x, y) :: rest, i, acc =>
    if le vol x then
      let den := fsub fpMinus30 x
      if eq den fp0 then .error i
      else
        let t := fdiv (fmul y (fsub vol x)) den
        segmentLoop vol rest (i + 1) (if lt t acc then t else acc)
    else segmentLoop vol rest (i + 1) acc

/-- `segmented(vol, mx, mn)` (R147): the accumulator starts at `+0.0`. -/
def segmented (vol : Word) (mx mn : Int) : CurveResult :=
  if inRange vol then
    match segmentLoop vol (segments (i2f (mx - mn))) 0 fp0 with
    | .ok acc => .value (fadd acc (i2f mx)) false
    | .error i => .zeroDenominator i
  else fallback vol mn

/-- The curve a curve code names, on `max_db` and `min_db` as mathematical integers (R140, R148). -/
def curve : Curve → Word → Int → Int → CurveResult
  | .flat => flat
  | .taper => tapered
  | .seg => segmented

end Sys2Proof.Machine
end

