-- ==== Sys2Proof/Machine/Volume.lean ====
section
/-! DEFINITION. Machine/Volume.lean: the meanings of VC.FLAT, VC.TAPER and VC.SEG (R140). -/

namespace Sys2Proof.Machine

/-- The run step of VC: `RES`, the diagnostic of an out-of-range `VOL` (R142, R177), and the completion; or the fatal
fault of a zero denominator, with nothing else of the step (R149, R172). -/
def volumeRun (k : Curve) (result : CurveResult) (s : State) : State :=
  match result with
  | .value res false => complete (writeRes res s)
  | .value res true => complete (diag k s.me.vol (writeRes res s))
  | .zeroDenominator i => raiseFatal .segZeroDenom (BitVec.ofNat 64 i) s

/-- A VC command (R140): `VOL`, `MAXDB` and `MINDB` are read in place in the run step. -/
def volumeCommand (i : Instr) (k : Curve) (s : State) : Outcome State :=
  plainCommand (fun s => .next (accept i s))
    (fun s => .next (volumeRun k (curve k s.me.vol s.me.maxInt s.me.minInt) s)) s

/-- `VC.FLAT` (R143). -/
def execVcFlat (s : State) : Outcome State := volumeCommand .vcFlat .flat s

/-- `VC.TAPER` (R144). -/
def execVcTaper (s : State) : Outcome State := volumeCommand .vcTaper .taper s

/-- `VC.SEG` (R147). -/
def execVcSeg (s : State) : Outcome State := volumeCommand .vcSeg .seg s

end Sys2Proof.Machine
end

