-- ==== Sys2Proof/Machine/Dispatch.lean ====
section
/-! DEFINITION. Machine/Dispatch.lean: one arm for each command, each one call of its meaning. -/

namespace Sys2Proof.Machine

def exec (i : Instr) (s : State) : Host.Outcome State Fault Refusal :=
  match i with
  | .init => Sys2Proof.Machine.execInit s
  | .draw => Sys2Proof.Machine.execDraw s
  | .synUnknown dth => Sys2Proof.Machine.execSynUnknown dth s
  | .synS8 dth => Sys2Proof.Machine.execSynS8 dth s
  | .synU8 dth => Sys2Proof.Machine.execSynU8 dth s
  | .synS16 dth => Sys2Proof.Machine.execSynS16 dth s
  | .synS16Le dth => Sys2Proof.Machine.execSynS16Le dth s
  | .synS16Be dth => Sys2Proof.Machine.execSynS16Be dth s
  | .synS24 dth => Sys2Proof.Machine.execSynS24 dth s
  | .synS24Le dth => Sys2Proof.Machine.execSynS24Le dth s
  | .synS24Be dth => Sys2Proof.Machine.execSynS24Be dth s
  | .synS243Le dth => Sys2Proof.Machine.execSynS243Le dth s
  | .synS243Be dth => Sys2Proof.Machine.execSynS243Be dth s
  | .synS32 dth => Sys2Proof.Machine.execSynS32 dth s
  | .synS32Le dth => Sys2Proof.Machine.execSynS32Le dth s
  | .synS32Be dth => Sys2Proof.Machine.execSynS32Be dth s
  | .synAuto dth => Sys2Proof.Machine.execSynAuto dth s
  | .synInvalid dth => Sys2Proof.Machine.execSynInvalid dth s
  | .vcFlat => Sys2Proof.Machine.execVcFlat s
  | .vcTaper => Sys2Proof.Machine.execVcTaper s
  | .vcSeg => Sys2Proof.Machine.execVcSeg s
  | .fmtqUnknown => Sys2Proof.Machine.execFmtqUnknown s
  | .fmtqS8 => Sys2Proof.Machine.execFmtqS8 s
  | .fmtqU8 => Sys2Proof.Machine.execFmtqU8 s
  | .fmtqS16 => Sys2Proof.Machine.execFmtqS16 s
  | .fmtqS16Le => Sys2Proof.Machine.execFmtqS16Le s
  | .fmtqS16Be => Sys2Proof.Machine.execFmtqS16Be s
  | .fmtqS24 => Sys2Proof.Machine.execFmtqS24 s
  | .fmtqS24Le => Sys2Proof.Machine.execFmtqS24Le s
  | .fmtqS24Be => Sys2Proof.Machine.execFmtqS24Be s
  | .fmtqS243Le => Sys2Proof.Machine.execFmtqS243Le s
  | .fmtqS243Be => Sys2Proof.Machine.execFmtqS243Be s
  | .fmtqS32 => Sys2Proof.Machine.execFmtqS32 s
  | .fmtqS32Le => Sys2Proof.Machine.execFmtqS32Le s
  | .fmtqS32Be => Sys2Proof.Machine.execFmtqS32Be s
  | .fmtqAuto => Sys2Proof.Machine.execFmtqAuto s
  | .fmtqInvalid => Sys2Proof.Machine.execFmtqInvalid s
  | .encUnknown => Sys2Proof.Machine.execEncUnknown s
  | .encS8 => Sys2Proof.Machine.execEncS8 s
  | .encU8 => Sys2Proof.Machine.execEncU8 s
  | .encS16 => Sys2Proof.Machine.execEncS16 s
  | .encS16Le => Sys2Proof.Machine.execEncS16Le s
  | .encS16Be => Sys2Proof.Machine.execEncS16Be s
  | .encS24 => Sys2Proof.Machine.execEncS24 s
  | .encS24Le => Sys2Proof.Machine.execEncS24Le s
  | .encS24Be => Sys2Proof.Machine.execEncS24Be s
  | .encS243Le => Sys2Proof.Machine.execEncS243Le s
  | .encS243Be => Sys2Proof.Machine.execEncS243Be s
  | .encS32 => Sys2Proof.Machine.execEncS32 s
  | .encS32Le => Sys2Proof.Machine.execEncS32Le s
  | .encS32Be => Sys2Proof.Machine.execEncS32Be s
  | .encAuto => Sys2Proof.Machine.execEncAuto s
  | .encInvalid => Sys2Proof.Machine.execEncInvalid s

end Sys2Proof.Machine
end

