-- ==== Sys2Proof/Machine/Agents.lean ====
section
/-! DEFINITION. Machine/Agents.lean: what each agent does in a step of its own: a host its next action on its window (R36,
R69, R175), a sequencer the next step of its command; that no fault falls between the byte writes of a sample (R176); and
which agents are enabled. -/

namespace Sys2Proof.Machine

/-- `RegWrite(p, off, v)` by the host of port `p`, with the checks of R175 in their order: halted, busy, illegal word; the
check for a sentinel format is the first of the command's own. -/
def hostWrite (p : Nat) (k : Slot) (v : Word) (s : State) : Outcome State :=
  let s := s.actingAs p
  if s.halted then .next s
  else if s.busy p then .next (raiseFatal .busyViolation (Slot.offset k) s)
  else if k = 0 then
    match decode v with
    | .ok i => exec i s
    | .error _ => .next (raiseFatal .illegalCmd v s)
  else .next (s.setMe (s.me.writeSlot k v))

/-- The state in which the host of port `p` has `rest` still to do. -/
def State.withProg (s : State) (p : Nat) (rest : List HostAction) : State :=
  s.setPort p { s.port p with prog := rest }

/-- A host's own store of one byte into the frame-buffer space, where the platform admits the address (R40, R49; log 4). -/
def hostStore (a : Word) (b : Byte) (s : State) : Outcome State :=
  if admitted s.platform a then .next { s with mem := Memory.writeByte s.mem a.toNat b } else .fault (.stuck a)

/-- The host of port `p` takes its next action (R9, R69). A `read` returns what the register holds at this step and changes
nothing of the block (R36; log 21). A `wait` goes on only once `BUSY` reads 0 (R69; log 20). -/
def hostAct (p : Nat) (s : State) : Outcome State :=
  match (s.port p).prog with
  | [] => .next s
  | .write k v :: rest => hostWrite p k v (s.withProg p rest)
  | .read k :: rest =>
    .next { s.withProg p rest with reads := { port := p, slot := k, value := regRead s p k } :: s.reads }
  | .wait :: rest => if s.busy p then .next s else .next (s.withProg p rest)
  | .store a b :: rest => hostStore a b (s.withProg p rest)

/-- The sequencer of port `p` takes the next step of its command (R9, R31); an idle port has none (R185). -/
def sequencerAct (p : Nat) (s : State) : Outcome State :=
  match (s.port p).seq.phase, (s.port p).seq.op with
  | .idle, _ => .next s
  | _, some i => exec i (s.actingAs p)
  | _, none => .next s

/-- The next step of an agent, as its port's host or sequencer has it. -/
def agentMove (g : Agent) (s : State) : Outcome State :=
  match g with
  | .host p => hostAct p s
  | .sequencer p => sequencerAct p s

/-- The next step of an agent raises a fatal fault (R171, R172). -/
def raises (g : Agent) (s : State) : Bool :=
  match agentMove g s with
  | .next t => !s.halted && t.halted
  | _ => false

/-- A step that raises a fatal fault is not enabled while some port is between two byte writes of one sample (R176; log 18):
it waits for the sample, which its port can always end. -/
def faultWaits (g : Agent) (s : State) : Bool := s.midSample && raises g s

/-- An agent takes its next step; an agent with no enabled step changes nothing. -/
def agentAct (g : Agent) (s : State) : Outcome State :=
  if faultWaits g s then .next s else agentMove g s

/-- Whether the host of port `p` has something to do: an action left, and not a `wait` on its busy port. -/
def hostEnabled (s : State) (p : Nat) : Bool :=
  match (s.port p).prog with
  | [] => false
  | .wait :: _ => !s.busy p
  | _ :: _ => true

/-- Whether a port in `WAITLOCK` can move: the lock is free (R95), or it is a SYN under `LOCK_GRAIN = SAMPLE` that has made
its last sample (R137). -/
def waitEnabled (s : State) (p : Nat) : Bool :=
  match s.cfg.lockGrain, (s.port p).seq.op with
  | .sample, some i => s.lock == .free || (i.fields.opc == 0x3 && (s.port p).samplesDone)
  | _, _ => s.lock == .free

/-- Whether the sequencer of port `p` has a step to take: not while halted (R173), held (R95) or stuck (R186). -/
def sequencerEnabled (s : State) (p : Nat) : Bool :=
  !s.halted &&
    match (s.port p).seq.phase with
    | .idle => false
    | .waitLock => waitEnabled s p
    | .run =>
      match sequencerAct p s with
      | .next _ => true
      | _ => false

/-- Whether an agent has an enabled step. -/
def agentEnabled (s : State) (g : Agent) : Bool :=
  !faultWaits g s &&
    match g with
    | .host p => hostEnabled s p
    | .sequencer p => sequencerEnabled s p

/-- The agents with an enabled step, port by port. -/
def enabledAgents (s : State) : List Agent :=
  ((List.range s.ports.length).flatMap fun p => [Agent.host p, Agent.sequencer p]).filter (agentEnabled s)

/-- The step of the machine where no schedule is given: any enabled agent may move (R9), and which of several does is a
free choice (log 3). Where none is enabled the machine stands still. -/
def freeStep (s : State) : Outcome State :=
  match enabledAgents s with
  | [] => .next s
  | [g] => agentAct g s
  | g :: more =>
    agentAct ((g :: more).getD (Config.arbiter s.choices % (more.length + 1)) g) { s with choices := s.choices + 1 }

/-- One step of the machine: the agent the schedule names next, or a free choice among the enabled ones (R9). -/
def machineStep (s : State) : Outcome State :=
  match s.sched with
  | g :: rest => agentAct g { s with sched := rest }
  | [] => freeStep s

/-- The state in which the host of port 0 is about to write a value to `CMD`. -/
def placeCommand (v : Word) (s : State) : State :=
  { s.withProg 0 (.write 0 v :: (s.port 0).prog) with sched := .host 0 :: s.sched }

/-- The 64-bit value whose low `nbits` bits are those of `w`, the others zero. -/
def tableValue (nbits w : Nat) : Word := BitVec.ofNat 64 (w % 2 ^ nbits)

end Sys2Proof.Machine
end

