-- ==== Sys2Proof/Machine/Step.lean ====
section
/-! DEFINITION. Machine/Step.lean: the step of the machine, and the placing of one command where the next step takes it. -/

namespace Sys2Proof.Machine

/-- One step of the machine (R2, R9). -/
def step : State → Host.Outcome State Fault Refusal := machineStep

/-- The state in which the next step is the write of a command word to `CMD` of port 0 by its host. The block has no
program counter and fetches nothing (R32): a command comes from its host (log 17). -/
def State.withFetchWord (s : State) (nbits w : Nat) : State := placeCommand (tableValue nbits w) s

end Sys2Proof.Machine
end

