-- ==== Sys2Proof/Safety.lean ====
section
/-! DEFINITION. Safety.lean: the terms claims are stated in: the invariant of the machine, a completed run (R206), a command
run by its own port alone, and the stream of draws and samples a SYN makes (R106). -/

namespace Sys2Proof

/-- The format a SYN, ENC or FMTQ names (R62). -/
def Instr.format (i : Instr) : Format := .ofCode i.fields.sub

/-- SYN commands (R61). -/
def Instr.isSyn (i : Instr) : Bool := i.fields.opc == 0x3

/-- ENC commands (R61). -/
def Instr.isEnc (i : Instr) : Bool := i.fields.opc == 0x6

/-- A SYN or ENC whose format is a sentinel: the accepting step rejects it (R122 to R124). -/
def Instr.isRejected (i : Instr) : Bool := (i.isSyn || i.isEnc) && !Machine.isValid i.format

end Sys2Proof

namespace Sys2Proof.Machine.F64

/-- The rational value of a finite pattern; an infinity and a NaN have none (R8). -/
def rat (w : Word) : Option ℚ :=
  match unpack w with
  | .fin neg m e => some ((if neg then -1 else 1) * (m : ℚ) * (2 : ℚ) ^ e)
  | _ => none

/-- A pattern is a rational rounded once to nearest, ties to even (R8): an infinity from `2^1024 - 2^970` on, the halfway
point above the largest finite value; else a finite pattern no other is nearer than, even where another is as near. A nonzero
rational keeps its sign, also where it rounds to a zero. -/
def RoundsTo (w : Word) (q : ℚ) : Prop :=
  (q ≠ 0 → signBit w = decide (q < 0)) ∧
    if (2 : ℚ) ^ 1024 - 2 ^ 970 ≤ |q| then w = infinity (decide (q < 0))
    else ∃ r, rat w = some r ∧ ∀ (v : Word) (s : ℚ), rat v = some s →
      |r - q| ≤ |s - q| ∧ (|s - q| = |r - q| → s ≠ r → w.getLsbD 0 = false)

end Sys2Proof.Machine.F64

namespace Sys2Proof.Machine

/-- A port runs a command: `exec` taken `n` times by the acting port, as its steps follow one another when no other agent
moves between them. -/
def execTimes (i : Instr) : Nat → State → Outcome State
  | 0, s => .next s
  | n + 1, s =>
    match exec i s with
    | .next t => execTimes i n t
    | .fault r => .fault r
    | .refused r => .refused r

/-- The acting port is idle and the block is not halted. -/
abbrev State.Idle (s : State) : Prop := s.live = true ∧ s.me.seq.phase = .idle

/-- The acting port waits for the lock, and the block is not halted. -/
abbrev State.Waiting (s : State) : Prop := s.live = true ∧ s.me.seq.phase = .waitLock

/-- The acting port runs its command, and the block is not halted. -/
abbrev State.Running (s : State) : Prop := s.live = true ∧ s.me.seq.phase = .run

/-- The acting port runs its command and has no `MemWrite` begun: between two samples of a SYN, or before the one of an
ENC. -/
abbrev State.BetweenSamples (s : State) : Prop := s.Running ∧ s.me.seq.out = [] ∧ s.me.seq.sent = false

/-- The acting port runs its command and the byte writes that are left of its `MemWrite` are `(a, b)` and then `rest`. -/
abbrev State.MidSample (s : State) (a : Word) (b : Byte) (rest : List (Word × Byte)) : Prop :=
  s.Running ∧ s.me.seq.out = (a, b) :: rest

/-- Every port but the acting one is the same in two states of one block. -/
def State.SameOtherPorts (s t : State) : Prop :=
  t.ports.length = s.ports.length ∧ ∀ p, p ≠ s.active → t.port p = s.port p

/-- Every byte outside the `n` addresses from `addr` on reads in the second memory as it reads in the first. -/
def SameBytesOutside (m m' : Memory) (addr : Word) (n : Nat) : Prop :=
  ∀ a, (∀ k, k < n → a ≠ (addr + BitVec.ofNat 64 k).toNat) → Memory.readByte m' a = Memory.readByte m a

/-- Every operand register of a port that no command result goes to is the same (R14, R65), and what its host has to do. -/
def Port.SameOperands (q r : Port) : Prop :=
  r.buf = q.buf ∧ r.nfr = q.nfr ∧ r.seed = q.seed ∧ r.vol = q.vol ∧ r.maxdb = q.maxdb ∧ r.mindb = q.mindb ∧ r.hs = q.hs
    ∧ r.prog = q.prog

/-- Everything around the ports that no step of a command changes: the parameters, the platform, the schedule, the hosts'
records. -/
def State.SameSurroundings (s t : State) : Prop :=
  t.cfg = s.cfg ∧ t.platform = s.platform ∧ t.active = s.active ∧ t.sched = s.sched ∧ t.choices = s.choices
    ∧ t.reads = s.reads

/-- The diagnostic registers are the same (R28 to R30). -/
def State.SameDiagnostics (s t : State) : Prop :=
  t.diagCnt = s.diagCnt ∧ t.diagVol = s.diagVol ∧ t.diagSrc = s.diagSrc

/-- The generator, `SEEDED` and the lock are the same (R11 to R13). -/
def State.SameGenerator (s t : State) : Prop :=
  t.dither = s.dither ∧ t.seeded = s.seeded ∧ t.lock = s.lock

/-- The platform admits `n` addresses from `addr` on (R49). -/
def State.Admits (s : State) (addr : Word) (n : Nat) : Prop :=
  ∀ k, k < n → admitted s.platform (addr + BitVec.ofNat 64 k) = true

/-- The `n`-th draw from a DitherState, counted from 0 (R94). -/
def Dither.drawAt (d : Dither) (n : Nat) : Word := (Dither.advance n d).value

/-- `previous_r` before the `n`-th sample of a SYN: `continuation_in`, then the draw of the sample before (R106). -/
def Dither.prevAt (d : Dither) (tok : Word) : Nat → Word
  | 0 => tok
  | n + 1 => d.drawAt n

/-- The bytes of the `n`-th sample of a SYN that starts from a DitherState and a token (R106, R108). -/
def sampleAt (cfg : Config.Params) (row : Row) (dth : Bool) (d : Dither) (tok : Word) (n : Nat) : List Byte :=
  pack cfg row (hyperSample row dth (d.drawAt n) (d.prevAt tok n))

/-- The memory after the first `n` samples of a SYN at `buf` (R125). -/
def memoryAfter (cfg : Config.Params) (row : Row) (dth : Bool) (d : Dither) (tok buf : Word) (m : Memory) : Nat → Memory
  | 0 => m
  | n + 1 =>
    Memory.writeBytes (memoryAfter cfg row dth d tok buf m n) (buf + BitVec.ofNat 64 (n * row.byteWidth))
      (sampleAt cfg row dth d tok n)

/-- How many bytes from `BUF` on the command a port runs writes: `2 * NFR * W` for SYN, `W` for ENC, none for the others
(R49). -/
def Port.bufferBytes (q : Port) : Nat :=
  match q.seq.op with
  | none => 0
  | some i =>
    match describe i.format with
    | none => 0
    | some row => if i.isSyn then q.samples * row.byteWidth else if i.isEnc then row.byteWidth else 0

/-- An address lies in the buffer of the command a port runs, the byte range of R49. -/
def Port.owns (q : Port) (a : Word) : Bool := decide ((a - q.buf).toNat < q.bufferBytes)

/-- The premise of R57 and R201: the buffers of the commands that are busy on two ports share no address. -/
def State.BuffersDisjoint (s : State) : Prop :=
  ∀ p q a, p ≠ q → (s.port p).owns a = true → (s.port q).owns a = false

/-- The single-byte writes that the next step of port `p`'s sequencer takes the first of: those left of its `MemWrite`, else
those of the `MemWrite` that the sample of its SYN, or its ENC, begins with (R42, R106, R134). -/
def State.nextWrites (s : State) (p : Nat) : List (Word × Byte) :=
  match (s.port p).seq.out, (s.port p).seq.op with
  | w :: rest, _ => w :: rest
  | [], none => []
  | [], some i =>
    match describe i.format with
    | none => []
    | some row =>
      if i.isSyn then byteWrites (s.port p).seq.cur (synBytes row i.fields.dth (s.actingAs p))
      else if i.isEnc then byteWrites (s.port p).buf (pack s.cfg row (s.port p).hs)
      else []

/-- A completed run: every port idle, no fault, the hosts with nothing left to do (R206). -/
def State.completed (s : State) : Bool :=
  !s.halted && s.ports.all fun q => q.seq.phase == .idle && q.prog.isEmpty

/-- The stream of a SYN in progress: its range fits (R50), at most `2 * NFR` samples are made, and the cursor stands right
after them (R32, R125). -/
def streamOk (cfg : Config.Params) (q : Port) (i : Instr) : Bool :=
  if i.isSyn || i.isEnc then
    match describe (i.format) with
    | none => false
    | some row =>
      !i.isSyn ||
        (q.rangeFits row.byteWidth &&
          (!(q.seq.phase == .run || cfg.lockGrain == .sample) ||
            (decide (q.seq.sidx.toNat ≤ q.samples) &&
              q.seq.cur == q.buf + BitVec.ofNat 64 (q.seq.sidx.toNat * row.byteWidth))))
  else true

/-- The byte writes left of a `MemWrite` lie in the buffer of the SYN or ENC that runs (R49, R125), and a SYN that is between
them has that sample still to end (R106). The mark of a begun `MemWrite` is set for one that a completion or a release
follows, in an ENC and in a SYN with `LOCK_GRAIN = SAMPLE`, and for no other (log 28). -/
def writesOk (cfg : Config.Params) (q : Port) : Bool :=
  (q.seq.out.all fun w => q.owns w.1) &&
    match q.seq.phase, q.seq.op with
    | .run, some i =>
      if i.isEnc || (i.isSyn && cfg.lockGrain == .sample) then
        (q.seq.sent || q.seq.out.isEmpty) && (!i.isSyn || q.seq.out.isEmpty || decide (q.seq.sidx.toNat < q.samples))
      else !q.seq.sent && (q.seq.out.isEmpty || (i.isSyn && decide (q.seq.sidx.toNat < q.samples)))
    | _, _ => !q.seq.sent && q.seq.out.isEmpty

/-- What holds of each port: `CMD` has a zero high half (R24), and a busy port runs the command whose word `CMD` holds,
which no sentinel check rejects, in a phase that the command has (R31, R95). -/
def portOk (cfg : Config.Params) (q : Port) : Bool :=
  decide (q.cmd.toNat < 2 ^ 32) && writesOk cfg q &&
    match q.seq.phase, q.seq.op with
    | .idle, none => true
    | .waitLock, some i => q.cmd == commandValue i && i.takesLock && streamOk cfg q i
    | .run, some i => q.cmd == commandValue i && streamOk cfg q i
    | _, _ => false

/-- The port runs a command that takes the lock. -/
def Port.runsLocked (q : Port) : Bool :=
  q.seq.phase == .run &&
    match q.seq.op with
    | some i => i.takesLock
    | none => false

/-- `LOCK` is `HELD(p)` exactly while port `p` runs a command that takes it, so at most one port does (R13, R95); after
`NOT_SEEDED` it stays held by the port that waits (R172). -/
def lockOk (s : State) : Bool :=
  match s.lock with
  | .free => s.ports.all fun q => !q.runsLocked
  | .held p =>
    decide (p < s.ports.length) &&
      ((s.port p).runsLocked || (s.halted && (s.port p).seq.phase == .waitLock)) &&
      (List.range s.ports.length).all fun q => q == p || !(s.port q).runsLocked

/-- While `SEEDED = 0` no port is past the acquire step of a command that draws (R98). -/
def seedOk (s : State) : Bool :=
  s.seeded || s.ports.all fun q => !q.runsLocked || q.seq.op == some .init

/-- `FAULT` and `FINFO` are 0 together, or `FAULT` holds a code of R171 and a port of the block (R26, R27). -/
def faultOk (s : State) : Bool :=
  (s.fault == 0 && s.finfo == 0) ||
    (List.range s.ports.length).any fun p =>
      [FatalCode.fmtSentinel, .segZeroDenom, .illegalCmd, .busyViolation, .notSeeded].any fun c =>
        s.fault == faultWord c p

/-- `DIAGSRC` is 0, or holds a curve and a port of the block (R30). -/
def diagOk (s : State) : Bool :=
  s.diagSrc == 0 ||
    (List.range s.ports.length).any fun p =>
      [Curve.flat, .taper, .seg].any fun k => s.diagSrc == diagSourceWord k p

/-- A halted block holds whole samples: no port is between two byte writes of one (R173, R176). -/
def wholeOk (s : State) : Bool := !s.halted || !s.midSample

/-- The invariant of the machine: the memory's canonical form, and the conditions above. -/
abbrev State.Inv (s : State) : Prop :=
  Memory.wf s.mem ∧ (s.ports.all (portOk s.cfg)) = true ∧ lockOk s = true ∧ seedOk s = true ∧ faultOk s = true
    ∧ diagOk s = true ∧ wholeOk s = true

end Sys2Proof.Machine
end

