-- ==== Sys2Proof/Certificates/Slice0/Obligations.lean ====
section
/-! DEFINITION. Certificates/Slice0/Obligations.lean: the statements for the provers, in the order of OBLIGATIONS.json. -/

open Sys2Proof Sys2Proof.Machine

/-! ## The encoding -/

/-- R66, R68: the decoder answers a command exactly for the value that encodes it, so every command decodes from its word
and no other value decodes to it. -/
def Obligations.DecodeAcceptsExactlyTheEncodings : Prop :=
  ∀ (v : Word) (i : Instr), decode v = .ok i ↔ v = commandValue i

/-- R66: a value is no command exactly where one of the listed conditions on its bits holds; writing such a value to `CMD`
of an idle port of a block that is not halted raises `Fatal(ILLEGAL_CMD, v)` and does nothing else. -/
def Obligations.IllegalValuesAreThoseOfR66 : Prop :=
  (∀ v : Word, (∃ e, decode v = .error e) ↔
    (v.toNat / 2 ^ 32 ≠ 0 ∨ v.toNat / 2 ^ 28 % 16 = 0 ∨ 7 ≤ v.toNat / 2 ^ 28 % 16 ∨ v.toNat % 2 ^ 23 ≠ 0 ∨
      (v.toNat / 2 ^ 23 % 2 = 1 ∧ v.toNat / 2 ^ 28 % 16 ≠ 3) ∨
      ((v.toNat / 2 ^ 28 % 16 = 1 ∨ v.toNat / 2 ^ 28 % 16 = 2) ∧ v.toNat / 2 ^ 24 % 16 ≠ 0) ∨
      (v.toNat / 2 ^ 28 % 16 = 4 ∧ 2 < v.toNat / 2 ^ 24 % 16))) ∧
  (∀ v : Word, (∀ e, decode v ≠ .error e) → ∃! i : Instr, v = commandValue i) ∧
  (∀ (s : State) (p : Nat) (v : Word) (e : Illegal), s.halted = false → s.busy p = false → decode v = .error e →
    hostWrite p 0 v s =
      .next { s with active := p, fault := BitVec.ofNat 64 (p % 256 * 256 + 3), finfo := v })

/-- R68: the words of the table of examples decode to the commands they stand for. -/
def Obligations.ExampleWordsDecode : Prop :=
  decode 0x10000000 = .ok .init ∧ decode 0x20000000 = .ok .draw ∧ decode 0x31000000 = .ok (.synS8 false) ∧
    decode 0x34800000 = .ok (.synS16Le true) ∧ decode 0x3D800000 = .ok (.synS32Be true) ∧
    decode 0x3E000000 = .ok (.synAuto false) ∧ decode 0x40000000 = .ok .vcFlat ∧ decode 0x41000000 = .ok .vcTaper ∧
    decode 0x42000000 = .ok .vcSeg ∧ decode 0x5A000000 = .ok .fmtqS243Be ∧ decode 0x62000000 = .ok .encU8

/-! ## The steps of the machine -/

/-- The step of the machine is the step of the agent the schedule names. R9, R24, R175: the host of `p` that writes a
command's value to `CMD` of its idle port, in a block that is not halted, runs the command's step, with the schedule and the
host's list one entry shorter and `p` the acting port. R9, R31: the sequencer of a busy port runs the next step of the
command the port runs, with the schedule one entry shorter and that port the acting one. In both, a step that raises a fault
is not enabled while some port is between two byte writes of one sample (R176, as log 18 reads it): then nothing but the
schedule changes. -/
def Obligations.StepRunsTheScheduledAgent : Prop :=
  (∀ (s : State) (p : Nat) (v : Word) (i : Instr) (more : List HostAction) (rest : List Agent),
    s.halted = false → s.busy p = false → s.sched = .host p :: rest → (s.port p).prog = .write 0 v :: more →
    decode v = .ok i →
    (s.midSample = false ∨ i.isRejected = false →
      step s = exec i { s.withProg p more with sched := rest, active := p }) ∧
    (s.midSample = true → i.isRejected = true → p < s.ports.length → step s = .next { s with sched := rest })) ∧
  (∀ (s : State) (p : Nat) (i : Instr) (rest : List Agent),
    s.busy p = true → s.sched = .sequencer p :: rest → (s.port p).seq.op = some i →
    (s.midSample = false ∨ s.seeded = true ∨ (s.port p).seq.phase = .run →
      step s = exec i { s with sched := rest, active := p }) ∧
    (∀ t, s.midSample = true → s.halted = false → exec i { s with sched := rest, active := p } = .next t →
      t.halted = true → step s = .next { s with sched := rest }))

/-- The accepting step of R83, R96, R97, R105, R134 and R140, for every command that no check of R67 rejects: `CMD` holds
the word, and INIT, DRAW and SYN wait for the lock, while VC, FMTQ and ENC run; nothing else changes. A SYN is one whose
range fits (R50), with `LOCK_GRAIN = CALL`. -/
def Obligations.AcceptIssuesTheCommand : Prop :=
  ∀ s : State, s.Idle →
    (∀ i, (i = .init ∨ i = .draw ∨ ∃ f dth row, i = .syn f dth ∧ describe f = some row ∧ s.cfg.lockGrain = .call ∧
        s.me.rangeFits row.byteWidth = true) →
      exec i s = .next { s with ports := s.ports.set s.active { s.me with
        cmd := commandValue i
        seq := { s.me.seq with phase := .waitLock, op := some i } } }) ∧
    (∀ i, ((∃ k, i = .vc k) ∨ (∃ f, i = .fmtq f) ∨ ∃ f, i = .enc f ∧ isValid f = true) →
      exec i s = .next { s with ports := s.ports.set s.active { s.me with
        cmd := commandValue i
        seq := { s.me.seq with phase := .run, op := some i } } })

/-- R95, R96, R97, R105: the acquire step of INIT, DRAW and SYN with a concrete format, where the lock is free and the
generator is seeded or the command is INIT: the lock is held by the port, the port runs, and a SYN loads `CUR`, `SIDX` and
`PREV`. -/
def Obligations.AcquireTakesTheFreeLock : Prop :=
  ∀ s : State, s.Waiting → s.lock = .free →
    (exec .init s = .next { s with
      lock := .held s.active
      ports := s.ports.set s.active { s.me with seq := { s.me.seq with phase := .run } } }) ∧
    (s.seeded = true → exec .draw s = .next { s with
      lock := .held s.active
      ports := s.ports.set s.active { s.me with seq := { s.me.seq with phase := .run } } }) ∧
    (∀ f dth, s.seeded = true → isValid f = true → s.cfg.lockGrain = .call → exec (.syn f dth) s = .next { s with
      lock := .held s.active
      ports := s.ports.set s.active { s.me with
        seq := { s.me.seq with phase := .run, cur := s.me.buf, sidx := 0, prev := s.me.tok } } })

/-- R95, R186: a port that waits while the lock is held is held: the command's step changes nothing (log 23). With
`LOCK_GRAIN = SAMPLE`, R137 has acquire and release wrap each sample and `done` need no lock; that the port is in `WAITLOCK`
between two samples, and that a SYN of no frames waits for the lock though it has no sample to make, is the model's choice
(log 15). -/
def Obligations.HeldPortWaits : Prop :=
  ∀ (i : Instr) (s : State) (p : Nat), s.Waiting → s.lock = .held p →
    (i.isSyn = true → s.cfg.lockGrain = .call ∨ s.me.seq.sidx = 0 ∨ s.me.seq.sidx.toNat ≠ 2 * s.me.nfr.toNat) →
    exec i s = .next s

/-- R98, R172: DRAW, and SYN with a concrete format and any frame count, faults `NOT_SEEDED` in its acquire step while
`SEEDED = 0`: `FAULT`, `FINFO` and the lock are written and nothing else, so no draw is made and no byte is written. With
`LOCK_GRAIN = SAMPLE` the SYN is one that has made no sample. That the port's phase stays `WAITLOCK` is the model's reading
of R172 (log 9). -/
def Obligations.UnseededAcquireFaults : Prop :=
  ∀ (i : Instr) (s : State), s.Waiting → s.lock = .free → s.seeded = false →
    (i = .draw ∨ (i.isSyn = true ∧ i.isRejected = false ∧ (s.cfg.lockGrain = .call ∨ s.me.seq.sidx = 0))) →
    exec i s = .next { s with
      lock := .held s.active
      fault := BitVec.ofNat 64 (s.active % 256 * 256 + 5)
      finfo := commandValue i }

/-! ## The generator -/

/-- R90: `rotate` is the left rotation: bit `i` of the word becomes bit `(i + k) mod 64` of the result. -/
def Obligations.RotateMovesEveryBit : Prop :=
  ∀ (x : Word) (k : Nat), k = 7 ∨ k = 13 ∨ k = 37 → rotate x k = (x <<< k) ||| (x >>> (64 - k)) ∧
    ∀ i, i < 64 → (rotate x k).getLsbD ((i + k) % 64) = x.getLsbD i

/-- R91: one draw as a parallel assignment from the old words; the value it returns is the new `d`. -/
def Obligations.DrawIsTheParallelAssignment : Prop :=
  ∀ a b c d : Word,
    let e := a - rotate b 7
    Dither.next { a := a, b := b, c := c, d := d } =
      { a := b ^^^ rotate c 13, b := c + rotate d 37, c := d + e, d := e + (b ^^^ rotate c 13) } ∧
    Dither.value { a := a, b := b, c := c, d := d } = e + (b ^^^ rotate c 13)

/-- R91: the generator loses nothing: two DitherStates that one draw makes equal were equal. -/
def Obligations.DrawIsInjective : Prop :=
  ∀ s t : Dither, s.next = t.next → s = t

/-- R96: the run step of INIT, with its whole frame: DitherState is `init(SEED)`, `SEEDED` is set, the lock is free, the
port is idle, and nothing else changes. -/
def Obligations.InitRunStepSeeds : Prop :=
  ∀ s : State, s.Running →
    exec .init s = .next { s with
      dither := Dither.advance 20
        { a := 0x00000000F1EA5EED, b := s.me.seed, c := s.me.seed, d := s.me.seed }
      seeded := true
      lock := .free
      ports := s.ports.set s.active { s.me with seq := { s.me.seq with phase := .idle, op := none } } }

/-- R93: an INIT issued when `SEEDED = 1` replaces the whole DitherState by the state `init(SEED)` gives, whatever the state
was: the three steps of the command, run by an idle port while the lock is free. -/
def Obligations.ReseedReplacesTheGenerator : Prop :=
  ∀ s : State, s.Idle → s.lock = .free → s.seeded = true →
    execTimes .init 3 s = .next { s with
      dither := Dither.init s.me.seed
      ports := s.ports.set s.active { s.me with
        cmd := 0x10000000
        seq := { s.me.seq with phase := .idle, op := none } } }

/-- R97: the run step of DRAW, with its whole frame: `RES` is the draw, DitherState moves by one draw, the lock is free, the
port is idle, and nothing else changes. -/
def Obligations.DrawRunStepWritesRes : Prop :=
  ∀ s : State, s.Running →
    exec .draw s = .next { s with
      dither := s.dither.next
      lock := .free
      ports := s.ports.set s.active { s.me with
        res := s.dither.next.d
        seq := { s.me.seq with phase := .idle, op := none } } }

/-! ## The frame synthesizer -/

/-- R106: a `sample` step of `SYN.<F>` for each concrete format, with `LOCK_GRAIN = CALL`, one byte write at each part of it
(R42, R46; log 18). Its first part makes the draw and writes the sample's first byte; a later part writes the next byte; the
part that writes the last one, which may be the first, moves `CUR`, `SIDX` and `PREV`. After `j` parts memory holds the first
`j` bytes of the sample, and after `W` the whole sample is written. -/
def Obligations.SampleStepWritesOneSample : Prop :=
  ∀ (f : Format) (dth : Bool) (row : Row) (s : State), describe f = some row →
    (s.BetweenSamples → s.cfg.lockGrain = .call → s.me.seq.sidx.toNat < 2 * s.me.nfr.toNat →
      s.Admits s.me.seq.cur row.byteWidth →
      let sample := pack s.cfg row
        (if dth then BitVec.ofInt 64
          (((s.dither.next.d &&& row.mask).toNat : Int) - ((s.me.seq.prev &&& row.mask).toNat : Int)) else 0)
      (∀ b rest, sample = b :: rest → exec (.syn f dth) s = .next { s with
        dither := s.dither.next
        mem := Memory.writeByte s.mem s.me.seq.cur.toNat b
        ports := s.ports.set s.active { s.me with seq :=
          if rest = [] then { s.me.seq with
            cur := s.me.seq.cur + 1, sidx := s.me.seq.sidx + 1, prev := s.dither.next.d }
          else { s.me.seq with out := byteWrites (s.me.seq.cur + 1) rest } } }) ∧
      (∀ j, 0 < j → j < row.byteWidth → execTimes (.syn f dth) j s = .next { s with
        dither := s.dither.next
        mem := Memory.writeBytes s.mem s.me.seq.cur (sample.take j)
        ports := s.ports.set s.active { s.me with
          seq := { s.me.seq with out := (byteWrites s.me.seq.cur sample).drop j } } }) ∧
      execTimes (.syn f dth) row.byteWidth s = .next { s with
        dither := s.dither.next
        mem := Memory.writeBytes s.mem s.me.seq.cur sample
        ports := s.ports.set s.active { s.me with seq := { s.me.seq with
          cur := s.me.seq.cur + BitVec.ofNat 64 row.byteWidth
          sidx := s.me.seq.sidx + 1
          prev := s.dither.next.d } } }) ∧
    (∀ a b rest, s.MidSample a b rest → exec (.syn f dth) s = .next { s with
      mem := Memory.writeByte s.mem a.toNat b
      ports := s.ports.set s.active { s.me with seq :=
        if rest = [] then { s.me.seq with
          cur := s.me.seq.cur + BitVec.ofNat 64 row.byteWidth, sidx := s.me.seq.sidx + 1, prev := s.dither.d, out := [] }
        else { s.me.seq with out := rest } } })

/-- R105, R126: the `done` step of `SYN.<F>` for each concrete format: `TOK` takes the last draw, the lock is free, the port
is idle, and nothing else changes. -/
def Obligations.DoneStepReturnsTheToken : Prop :=
  ∀ (f : Format) (dth : Bool) (s : State), isValid f = true → s.BetweenSamples →
    s.me.seq.sidx.toNat = 2 * s.me.nfr.toNat →
    exec (.syn f dth) s = .next { s with
      lock := .free
      ports := s.ports.set s.active { s.me with
        tok := s.me.seq.prev
        seq := { s.me.seq with phase := .idle, op := none } } }

/-- R137: `SYN.<F>` with `LOCK_GRAIN = SAMPLE`. The accepting step loads `CUR`, `SIDX` and `PREV`; a SYN with a sample to
make, and a SYN of no frames, takes the lock; the lock is held through every part of the `sample` step, which draws and writes
the sample byte by byte (log 18), and after the last byte a step of its own gives it back (log 28); `done` needs no lock.
What the rule leaves open is the model's choice of log 15: the phase between two samples, and the lock of a SYN of no
frames. -/
def Obligations.SampleGrainLocksEachSample : Prop :=
  ∀ (f : Format) (dth : Bool) (row : Row) (s : State), describe f = some row → s.cfg.lockGrain = .sample →
    (s.Idle → s.me.rangeFits row.byteWidth = true →
      exec (.syn f dth) s = .next { s with ports := s.ports.set s.active { s.me with
        cmd := commandValue (.syn f dth)
        seq := { s.me.seq with
          phase := .waitLock, cur := s.me.buf, sidx := 0, prev := s.me.tok, op := some (.syn f dth) } } }) ∧
    (s.Waiting → s.seeded = true → s.lock = .free →
      s.me.seq.sidx.toNat < 2 * s.me.nfr.toNat ∨ (s.me.seq.sidx = 0 ∧ s.me.nfr = 0) →
      exec (.syn f dth) s = .next { s with
        lock := .held s.active
        ports := s.ports.set s.active { s.me with seq := { s.me.seq with phase := .run } } }) ∧
    (s.BetweenSamples → s.me.seq.sidx.toNat < 2 * s.me.nfr.toNat → s.Admits s.me.seq.cur row.byteWidth →
      ∀ b rest, pack s.cfg row (hyperSample row dth s.dither.next.d s.me.seq.prev) = b :: rest →
      exec (.syn f dth) s = .next { s with
        dither := s.dither.next
        mem := Memory.writeByte s.mem s.me.seq.cur.toNat b
        ports := s.ports.set s.active { s.me with seq :=
          if rest = [] then { s.me.seq with
            cur := s.me.seq.cur + 1, sidx := s.me.seq.sidx + 1, prev := s.dither.next.d, sent := true }
          else { s.me.seq with out := byteWrites (s.me.seq.cur + 1) rest, sent := true } } }) ∧
    (s.Running → s.me.seq.out = [] → s.me.seq.sent = true →
      exec (.syn f dth) s = .next { s with
        lock := .free
        ports := s.ports.set s.active { s.me with seq := { s.me.seq with phase := .waitLock, sent := false } } }) ∧
    (s.Waiting → s.me.seq.sidx ≠ 0 → s.me.seq.sidx.toNat = 2 * s.me.nfr.toNat →
      exec (.syn f dth) s = .next { s with ports := s.ports.set s.active { s.me with
        tok := s.me.seq.prev
        seq := { s.me.seq with phase := .idle, op := none } } })

/-- R105, R106, R125, R126, R127: a whole SYN of a concrete format, run by an idle port while the lock is free: after its
last step DitherState has moved by `2 * NFR` draws, the memory holds the samples in order, `TOK` is the last draw (or is
unchanged where `NFR = 0`), and `BUF`, `NFR`, `RES`, `HS` and everything else are unchanged. With `LOCK_GRAIN = CALL` its
steps are the accepting one, the acquire step, `2 * NFR` samples in `W` parts each (log 18), and `done`. With
`LOCK_GRAIN = SAMPLE` a run with no other agent between ends in the same state (R137), with an acquire step and a release
(log 28) for each sample, or one acquire step where `NFR = 0` (log 15). -/
def Obligations.SynRunsAsTheWholeSynthesis : Prop :=
  ∀ (f : Format) (dth : Bool) (row : Row) (s : State), describe f = some row → s.Idle →
    s.me.seq.out = [] → s.me.seq.sent = false → s.lock = .free → s.seeded = true →
    s.me.buf.toNat + 2 * s.me.nfr.toNat * row.byteWidth ≤ 2 ^ 64 →
    s.Admits s.me.buf (2 * s.me.nfr.toNat * row.byteWidth) →
    execTimes (.syn f dth)
      (match s.cfg.lockGrain with
        | .call => 2 * s.me.nfr.toNat * row.byteWidth + 3
        | .sample => if s.me.nfr = 0 then 3 else 2 * s.me.nfr.toNat * (row.byteWidth + 2) + 2) s = .next { s with
      dither := Dither.advance (2 * s.me.nfr.toNat) s.dither
      mem := memoryAfter s.cfg row dth s.dither s.me.tok s.me.buf s.mem (2 * s.me.nfr.toNat)
      ports := s.ports.set s.active { s.me with
        cmd := commandValue (.syn f dth)
        tok := s.dither.prevAt s.me.tok (2 * s.me.nfr.toNat)
        seq := { s.me.seq with
          phase := .idle
          cur := s.me.buf + BitVec.ofNat 64 (2 * s.me.nfr.toNat * row.byteWidth)
          sidx := BitVec.ofNat 33 (2 * s.me.nfr.toNat)
          prev := s.dither.prevAt s.me.tok (2 * s.me.nfr.toNat)
          op := none } } }

/-- R125: what the memory of a SYN holds: byte `k` of sample `j` at `BUF + j*W + k`, and every byte outside
`BUF .. BUF + n*W - 1` as before. -/
def Obligations.SynBytesLieInOrder : Prop :=
  ∀ (cfg : Config.Params) (f : Format) (row : Row) (dth : Bool) (d : Dither) (tok buf : Word) (m : Memory) (n : Nat),
    describe f = some row → buf.toNat + n * row.byteWidth ≤ 2 ^ 64 →
    (∀ j k, j < n → k < row.byteWidth →
      (memoryAfter cfg row dth d tok buf m n).readByte (buf.toNat + j * row.byteWidth + k) =
        (sampleAt cfg row dth d tok j)[k]? ∧ (sampleAt cfg row dth d tok j)[k]?.isSome = true) ∧
    ∀ a, (a < buf.toNat ∨ buf.toNat + n * row.byteWidth ≤ a) →
      (memoryAfter cfg row dth d tok buf m n).readByte a = m.readByte a

/-- R131: synthesizing `k` frames and then, from where the buffer and the token stand, `m` frames gives the memory, the
generator and the token that `k + m` frames in one call give. -/
def Obligations.SynthesisIsContinuous : Prop :=
  ∀ (f : Format) (dth : Bool) (row : Row) (k m : Nat) (s : State), describe f = some row → s.Idle →
    s.me.seq.out = [] → s.me.seq.sent = false → s.lock = .free → s.seeded = true → s.cfg.lockGrain = .call → k + m < 2 ^ 32 →
    s.me.buf.toNat + 2 * (k + m) * row.byteWidth ≤ 2 ^ 64 → s.Admits s.me.buf (2 * (k + m) * row.byteWidth) →
    ∃ t u v,
      execTimes (.syn f dth) (2 * k * row.byteWidth + 3) (s.setMe { s.me with nfr := BitVec.ofNat 32 k }) = .next t ∧
      execTimes (.syn f dth) (2 * m * row.byteWidth + 3) (t.setMe { t.me with
        buf := s.me.buf + BitVec.ofNat 64 (2 * k * row.byteWidth)
        nfr := BitVec.ofNat 32 m }) = .next u ∧
      execTimes (.syn f dth) (2 * (k + m) * row.byteWidth + 3)
        (s.setMe { s.me with nfr := BitVec.ofNat 32 (k + m) }) = .next v ∧
      u.mem = v.mem ∧ u.dither = v.dither ∧ u.me.tok = v.me.tok

/-- R204, for the machine's own step: with its port scheduled alone, a SYN written to `CMD` is complete after the host's write
and the steps of its sequencer: the acquire step, `2 * NFR` `sample` steps, each in one part for each byte of a sample
(log 18), and `done`; so `2 * NFR + 3` where a sample is one byte. -/
def Obligations.SynCompletesInBoundedSteps : Prop :=
  ∀ (f : Format) (dth : Bool) (row : Row) (s : State) (p : Nat) (more : List HostAction) (rest : List Agent),
    describe f = some row → s.halted = false → p < s.ports.length → (s.port p).seq.phase = .idle →
    (s.port p).seq.out = [] → (s.port p).seq.sent = false → s.lock = .free →
    s.seeded = true → s.cfg.lockGrain = .call → (s.port p).rangeFits row.byteWidth = true →
    s.Admits (s.port p).buf (2 * (s.port p).nfr.toNat * row.byteWidth) →
    (s.port p).prog = .write 0 (commandValue (.syn f dth)) :: more →
    s.sched = .host p :: List.replicate (2 * (s.port p).nfr.toNat * row.byteWidth + 2) (.sequencer p) ++ rest →
    ∃ t, Host.Core.run Sys2Proof.core (2 * (s.port p).nfr.toNat * row.byteWidth + 3) s = .next t ∧
      t.busy p = false ∧ t.halted = false ∧ t.lock = .free ∧ t.sched = rest ∧ (t.port p).prog = more ∧
      (t.port p).tok = s.dither.prevAt (s.port p).tok (2 * (s.port p).nfr.toNat) ∧
      t.mem = memoryAfter s.cfg row dth s.dither (s.port p).tok (s.port p).buf s.mem (2 * (s.port p).nfr.toNat)

/-- R107, R132: with dither every sample is 0 or -1: it is the packed -1 exactly where the masked draw is below the masked
previous draw, else the packed 0. -/
def Obligations.DitheredSamplesAreZeroOrMinusOne : Prop :=
  ∀ (cfg : Config.Params) (f : Format) (row : Row) (r prev : Word), describe f = some row →
    pack cfg row (hyperSample row true r prev) =
      if (r &&& row.mask).toNat < (prev &&& row.mask).toNat then pack cfg row 0xFFFFFFFFFFFFFFFF else pack cfg row 0

/-- R130: the zero sample is `W` bytes of 0x00 for every signed format and the one byte 0x80 for U8, under every byte order
and padding. -/
def Obligations.ZeroSampleIsTheCanonicalPattern : Prop :=
  ∀ (cfg : Config.Params) (f : Format) (row : Row) (r prev : Word), describe f = some row →
    pack cfg row (hyperSample row false r prev) = if row.signed then List.replicate row.byteWidth 0x00 else [0x80]

/-- The frame of SYN with a concrete format, in every phase and under either lock grain: every other port, the operand
registers `BUF`, `NFR`, `SEED`, `VOL`, `MAXDB`, `MINDB`, `HS`, the result register `RES`, `SEEDED`, the diagnostic
registers and everything around the ports are unchanged; `CMD` changes only where the port was idle, and `TOK` only where it
becomes idle; and every byte of memory is unchanged but one, in a part of a `sample` step: the next of the byte writes that
are left of the sample, or, in its first part, the byte at the cursor (R65, R106, R125, R126; log 18). -/
def Obligations.SynFrame : Prop :=
  ∀ (f : Format) (dth : Bool) (row : Row) (s t : State), describe f = some row → s.active < s.ports.length →
    exec (.syn f dth) s = .next t →
    s.SameOtherPorts t ∧ s.me.SameOperands t.me ∧ t.me.res = s.me.res ∧ t.seeded = s.seeded ∧ s.SameDiagnostics t ∧
      s.SameSurroundings t ∧
      (s.me.seq.phase ≠ .idle → t.me.cmd = s.me.cmd) ∧
      (t.me.tok ≠ s.me.tok → t.me.seq.phase = .idle) ∧
      (s.me.seq.phase ≠ .run → ∀ x, t.readByte x = s.readByte x) ∧
      (∀ a b rest, s.me.seq.out = (a, b) :: rest → ∀ x, x ≠ a.toNat → t.readByte x = s.readByte x) ∧
      (s.me.seq.out = [] → ∀ x, x ≠ s.me.seq.cur.toNat → t.readByte x = s.readByte x) ∧
      (s.me.seq.out = [] → (s.me.seq.sent = true ∨ 2 * s.me.nfr.toNat ≤ s.me.seq.sidx.toNat) →
        ∀ x, t.readByte x = s.readByte x)

/-- R122, R123, R124: SYN and ENC with a sentinel format, from an idle port: `FAULT` and `FINFO` are written, and nothing else
changes: no command is issued, no lock requested, no draw made, no byte written. -/
def Obligations.SentinelFormatIsFatal : Prop :=
  ∀ (f : Format) (dth : Bool) (s : State), (f = .unknown ∨ f = .auto ∨ f = .invalid) → s.Idle →
    let t := { s with
      fault := BitVec.ofNat 64 (s.active % 256 * 256 + 1)
      finfo := if f = .unknown then 0 else if f = .auto then 14 else 15 }
    exec (.syn f dth) s = .next t ∧ exec (.enc f) s = .next t

/-- R50: a SYN of a concrete format whose range `BUF + 2 * NFR * W` exceeds `2^64` is refused; that it is refused when it is
issued, before any step of it, is the model's reading (log 11). -/
def Obligations.WrappingRangeIsRefused : Prop :=
  ∀ (f : Format) (dth : Bool) (row : Row) (s : State), describe f = some row → s.Idle →
    2 ^ 64 < s.me.buf.toNat + 2 * s.me.nfr.toNat * row.byteWidth →
    exec (.syn f dth) s = .refused (.bufferWraps s.me.buf s.me.nfr row.byteWidth)

/-! ## The encoder and the registry -/

/-- R108 to R121: the bytes of every concrete format, lowest address first. The native formats follow `NATIVE_ORDER`, and the
padding byte of the four-byte 24-bit formats is the one `PAD24` says. -/
def Obligations.PackGivesTheBytesOfEveryFormat : Prop :=
  ∀ (cfg : Config.Params) (h : Word) (row : Row),
    let b := fun lo => h.extractLsb' lo 8
    let pad : Byte := if cfg.pad24 = .sign ∧ h.getLsbD 63 = true then 0xFF else 0x00
    (describe .s8 = some row → pack cfg row h = [b 56]) ∧
    (describe .u8 = some row → pack cfg row h = [b 56 + 128]) ∧
    (describe .s16Le = some row → pack cfg row h = [b 48, b 56]) ∧
    (describe .s16Be = some row → pack cfg row h = [b 56, b 48]) ∧
    (describe .s16 = some row → pack cfg row h = if cfg.nativeOrder = .le then [b 48, b 56] else [b 56, b 48]) ∧
    (describe .s24Le = some row → pack cfg row h = [b 40, b 48, b 56, pad]) ∧
    (describe .s24Be = some row → pack cfg row h = [pad, b 56, b 48, b 40]) ∧
    (describe .s24 = some row →
      pack cfg row h = if cfg.nativeOrder = .le then [b 40, b 48, b 56, pad] else [pad, b 56, b 48, b 40]) ∧
    (describe .s243Le = some row → pack cfg row h = [b 40, b 48, b 56]) ∧
    (describe .s243Be = some row → pack cfg row h = [b 56, b 48, b 40]) ∧
    (describe .s32Le = some row → pack cfg row h = [b 32, b 40, b 48, b 56]) ∧
    (describe .s32Be = some row → pack cfg row h = [b 56, b 48, b 40, b 32]) ∧
    (describe .s32 = some row →
      pack cfg row h = if cfg.nativeOrder = .le then [b 32, b 40, b 48, b 56] else [b 56, b 48, b 40, b 32])

/-- R134: `ENC.<F>` for each concrete format, one byte write at each part of its run step (R42, R46; log 18). The first part
writes the first byte of the packed `HS` at `BUF`, a later part the next byte, and once all are written (R51) the completing
step makes the port idle; each with its whole frame. The whole command, run by an idle port on its own, leaves the packed
`HS` at `BUF`. An ENC whose bytes pass the top of the space goes on at address 0 (R50; the model's reading, log 12); that the
command completes in a step of its own is log 28. -/
def Obligations.EncWritesThePackedSample : Prop :=
  ∀ (f : Format) (row : Row) (s : State), describe f = some row →
    (s.BetweenSamples → s.Admits s.me.buf row.byteWidth → ∀ b rest, pack s.cfg row s.me.hs = b :: rest →
      exec (.enc f) s = .next { s with
        mem := Memory.writeByte s.mem s.me.buf.toNat b
        ports := s.ports.set s.active { s.me with
          seq := { s.me.seq with out := byteWrites (s.me.buf + 1) rest, sent := true } } }) ∧
    (∀ a b rest, s.MidSample a b rest → exec (.enc f) s = .next { s with
      mem := Memory.writeByte s.mem a.toNat b
      ports := s.ports.set s.active { s.me with seq := { s.me.seq with out := rest } } }) ∧
    (s.Running → s.me.seq.out = [] → s.me.seq.sent = true →
      exec (.enc f) s = .next { s with ports := s.ports.set s.active { s.me with
        seq := { s.me.seq with phase := .idle, op := none, sent := false } } }) ∧
    (s.Idle → s.me.seq.out = [] → s.me.seq.sent = false → s.Admits s.me.buf row.byteWidth →
      execTimes (.enc f) (row.byteWidth + 2) s = .next { s with
        mem := Memory.writeBytes s.mem s.me.buf (pack s.cfg row s.me.hs)
        ports := s.ports.set s.active { s.me with
          cmd := commandValue (.enc f)
          seq := { s.me.seq with phase := .idle, op := none } } })

/-- The frame of ENC with a concrete format, whatever its step: every other port, every operand register, `TOK`, `RES`, the
generator, the lock, the fault and diagnostic registers and everything around the ports are unchanged; `CMD` changes only
where the port was idle; and every byte of memory is unchanged but one, in a part of its run step: the next of the byte
writes that are left, or, in the first part, the byte at `BUF` (R65, R134; log 18). Where the bytes of an ENC pass the top of
the space, those left are at addresses from 0 on (log 12). -/
def Obligations.EncFrame : Prop :=
  ∀ (f : Format) (row : Row) (s t : State), describe f = some row → s.active < s.ports.length →
    exec (.enc f) s = .next t →
    s.SameOtherPorts t ∧ s.me.SameOperands t.me ∧ t.me.tok = s.me.tok ∧ t.me.res = s.me.res ∧ s.SameGenerator t ∧
      t.fault = s.fault ∧ t.finfo = s.finfo ∧ s.SameDiagnostics t ∧ s.SameSurroundings t ∧
      (s.me.seq.phase ≠ .idle → t.me.cmd = s.me.cmd) ∧
      (s.me.seq.phase ≠ .run → ∀ x, t.readByte x = s.readByte x) ∧
      (∀ a b rest, s.me.seq.out = (a, b) :: rest → ∀ x, x ≠ a.toNat → t.readByte x = s.readByte x) ∧
      (s.me.seq.out = [] → ∀ x, x ≠ s.me.buf.toNat → t.readByte x = s.readByte x) ∧
      (s.me.seq.out = [] → s.me.seq.sent = true → ∀ x, t.readByte x = s.readByte x)

/-- R49, R186: a `sample` step of SYN and the run step of ENC whose `MemWrite` has an address the platform does not admit do
not happen: the port is stuck, which the model shows as a fault of its own (log 10). -/
def Obligations.UnadmittedWriteIsStuck : Prop :=
  ∀ (f : Format) (dth : Bool) (row : Row) (s : State) (k : Nat), describe f = some row → s.BetweenSamples →
    k < row.byteWidth →
    (s.me.seq.sidx.toNat < 2 * s.me.nfr.toNat → s.Admits s.me.seq.cur k →
      admitted s.platform (s.me.seq.cur + BitVec.ofNat 64 k) = false →
      exec (.syn f dth) s = .fault (.stuck (s.me.seq.cur + BitVec.ofNat 64 k))) ∧
    (s.Admits s.me.buf k → admitted s.platform (s.me.buf + BitVec.ofNat 64 k) = false →
      exec (.enc f) s = .fault (.stuck (s.me.buf + BitVec.ofNat 64 k)))

/-- R42, R50: the bytes of a `MemWrite` read back from ascending addresses modulo `2^64`, and every other byte is unchanged.
R46: while it goes on the memory holds a prefix of its byte writes: after `j` of them the first `j` bytes are in memory and
the others are left, and nothing else has changed. -/
def Obligations.WrittenBytesReadBack : Prop :=
  (∀ (m : Memory) (addr : Word) (bytes : List Byte), bytes.length ≤ 2 ^ 64 →
    (∀ k, k < bytes.length → (m.writeBytes addr bytes).readByte (addr + BitVec.ofNat 64 k).toNat = bytes[k]?) ∧
    SameBytesOutside m (m.writeBytes addr bytes) addr bytes.length) ∧
  (∀ (s : State) (j : Nat) (addr : Word) (bytes : List Byte), s.active < s.ports.length →
    s.me.seq.out = byteWrites addr bytes → j ≤ bytes.length →
    writeNextByte^[j] s = { s with
      mem := Memory.writeBytes s.mem addr (bytes.take j)
      ports := s.ports.set s.active { s.me with seq := { s.me.seq with out := (byteWrites addr bytes).drop j } } })

/-- R9, R42, R46, R57: only the single byte is written atomically. A step of the machine changes at most one byte of memory:
the sequencer of some port, in a block that is not halted, performs the first of its next byte writes (those left of its
`MemWrite`, or those its `MemWrite` begins with), or a host stores a byte of its own; so each byte that two commands write
ends with the value of one of the writes to it, in the order the steps take them. -/
def Obligations.StepWritesAtMostOneByte : Prop :=
  ∀ s t : State, step s = .next t →
    t.mem = s.mem ∨
      (∃ p a b rest, s.halted = false ∧ (s.port p).seq.phase = .run ∧ s.nextWrites p = (a, b) :: rest ∧
        (t.port p).seq.out = rest ∧ t.mem = Memory.writeByte s.mem a.toNat b) ∨
      ∃ p a b rest, (s.port p).prog = .store a b :: rest ∧ (t.port p).prog = rest ∧
        admitted s.platform a = true ∧ t.mem = Memory.writeByte s.mem a.toNat b

/-- R57, R201: under the premise that the buffers of the busy commands share no address, and that no host stores into the
buffer of a busy command, a byte of a busy command's buffer changes only in a step of that command's own sequencer. -/
def Obligations.DisjointBuffersAreUndisturbed : Prop :=
  ∀ (s t : State) (g : Agent) (p : Nat) (a : Word), s.Inv → s.BuffersDisjoint → (s.port p).owns a = true →
    (∀ q b c rest, (s.port q).prog = .store b c :: rest → (s.port p).owns b = false) →
    agentAct g s = .next t → g ≠ .sequencer p → t.readByte a.toNat = s.readByte a.toNat

/-- R83: the run step of `FMTQ.<F>` for all sixteen formats, with its whole frame: `RES` holds the packed row, 0 for a
sentinel, which is the value the rule lists for the format under either `NATIVE_ORDER`; the port is idle; nothing else
changes. -/
def Obligations.FmtqRunStepAnswersTheRow : Prop :=
  ∀ (f : Format) (s : State), s.Running →
    let answer (v : Word) : State := { s with ports := s.ports.set s.active { s.me with
      res := v
      seq := { s.me.seq with phase := .idle, op := none } } }
    exec (.fmtq f) s = .next (answer (match describe f with
      | none => 0
      | some row => BitVec.ofNat 64
          (2 ^ 31 + (if row.bigEndian s.cfg.nativeOrder then 2 ^ 27 else 0) + (if row.signed then 2 ^ 26 else 0) +
            row.order.code.toNat * 2 ^ 24 + row.shift * 2 ^ 16 + row.byteWidth * 2 ^ 8 + row.bitDepth))) ∧
    exec (.fmtq f) s = .next (answer (match f with
      | .unknown => 0
      | .s8 => 0x84380108
      | .u8 => 0x80380108
      | .s16 => if s.cfg.nativeOrder = .le then 0x87300210 else 0x8F300210
      | .s16Le => 0x85300210
      | .s16Be => 0x8E300210
      | .s24 => if s.cfg.nativeOrder = .le then 0x87280418 else 0x8F280418
      | .s24Le => 0x85280418
      | .s24Be => 0x8E280418
      | .s243Le => 0x85280318
      | .s243Be => 0x8E280318
      | .s32 => if s.cfg.nativeOrder = .le then 0x87200420 else 0x8F200420
      | .s32Le => 0x85200420
      | .s32Be => 0x8E200420
      | .auto => 0
      | .invalid => 0))

/-! ## The binary64 arithmetic -/

/-- R8: `fadd`, `fsub`, `fmul` and `fdiv` of finite values are the exact results rounded once to nearest, ties to even, with
subnormals kept and the overflow of IEEE 754; an exact zero sum is `+0` unless both are negative zeros, and a zero product
or quotient has the sign of the operands' signs; a NaN operand gives a NaN; and `i2f` is exact below `2^53`. -/
def Obligations.ArithmeticRoundsToNearestEven : Prop :=
  (∀ (x y : Word) (r q : ℚ), F64.rat x = some r → F64.rat y = some q →
    F64.RoundsTo (F64.fadd x y) (r + q) ∧ F64.RoundsTo (F64.fsub x y) (r - q) ∧
      F64.RoundsTo (F64.fmul x y) (r * q) ∧ (q ≠ 0 → F64.RoundsTo (F64.fdiv x y) (r / q)) ∧
      (r + q = 0 → F64.fadd x y = F64.zero (F64.signBit x && F64.signBit y)) ∧
      (r - q = 0 → F64.fsub x y = F64.zero (F64.signBit x && !F64.signBit y)) ∧
      (r * q = 0 → F64.fmul x y = F64.zero (F64.signBit x != F64.signBit y)) ∧
      (r = 0 → q ≠ 0 → F64.fdiv x y = F64.zero (F64.signBit x != F64.signBit y))) ∧
  (∀ x y : Word, F64.isNaN x = true ∨ F64.isNaN y = true →
    F64.isNaN (F64.fadd x y) = true ∧ F64.isNaN (F64.fsub x y) = true ∧ F64.isNaN (F64.fmul x y) = true ∧
      F64.isNaN (F64.fdiv x y) = true) ∧
  (∀ n : Int, n.natAbs ≤ 2 ^ 53 → F64.rat (F64.i2f n) = some (n : ℚ))

/-- R8: the comparisons are the IEEE ones: false where an operand is a NaN; by value on the finite patterns, so that the two
zeros are equal; and every finite value lies between the infinities. -/
def Obligations.ComparisonsAreByValue : Prop :=
  (∀ x : Word, F64.isNaN x = true ↔ 0x7FF0000000000000 < (x &&& 0x7FFFFFFFFFFFFFFF).toNat) ∧
  (∀ x y : Word, F64.isNaN x = true ∨ F64.isNaN y = true →
    F64.lt x y = false ∧ F64.le x y = false ∧ F64.eq x y = false) ∧
  (∀ (x y : Word) (r q : ℚ), F64.rat x = some r → F64.rat y = some q →
    (F64.lt x y = true ↔ r < q) ∧ (F64.le x y = true ↔ r ≤ q) ∧ (F64.eq x y = true ↔ r = q)) ∧
  (∀ (x : Word) (r : ℚ), F64.rat x = some r →
    F64.lt x 0x7FF0000000000000 = true ∧ F64.lt 0xFFF0000000000000 x = true ∧
      F64.le 0x7FF0000000000000 x = false ∧ F64.le x 0xFFF0000000000000 = false)

/-! ## The volume curves -/

/-- R141: the three classes of `vol` are disjoint and cover every pattern. In range are the pattern of `+0.0` and the negative
patterns of magnitude at most 30.0, `-0.0` among them; muted is the one pattern of `-144.0`; both infinities and every NaN
are out of range. -/
def Obligations.VolumeClassesPartition : Prop :=
  ∀ vol : Word,
    ((inRange vol = true ∧ muted vol = false ∧ outOfRange vol = false) ∨
      (inRange vol = false ∧ muted vol = true ∧ outOfRange vol = false) ∨
      (inRange vol = false ∧ muted vol = false ∧ outOfRange vol = true)) ∧
    (inRange vol = true ↔
      vol = 0 ∨ (vol.getLsbD 63 = true ∧ (vol &&& 0x7FFFFFFFFFFFFFFF).toNat ≤ 0x403E000000000000)) ∧
    (muted vol = true ↔ vol = 0xC062000000000000) ∧
    outOfRange 0x7FF0000000000000 = true ∧ outOfRange 0xFFF0000000000000 = true ∧
    (0x7FF0000000000000 < (vol &&& 0x7FFFFFFFFFFFFFFF).toNat → outOfRange vol = true)

/-- R143, R148: the run step of VC.FLAT on an in-range `VOL`, with its whole frame. -/
def Obligations.FlatRunStepWritesRes : Prop :=
  ∀ s : State, s.Running → inRange s.me.vol = true →
    exec .vcFlat s = .next { s with ports := s.ports.set s.active { s.me with
      res := F64.fadd (F64.fdiv (F64.fmul (F64.i2f (s.me.maxdb.toInt - s.me.mindb.toInt))
        (F64.fadd 0x403E000000000000 s.me.vol)) 0x403E000000000000) (F64.i2f s.me.mindb.toInt)
      seq := { s.me.seq with phase := .idle, op := none } } }

/-- R144, R148: the run step of VC.TAPER on an in-range `VOL`, with its whole frame. -/
def Obligations.TaperRunStepWritesRes : Prop :=
  ∀ s : State, s.Running → inRange s.me.vol = true →
    let mx := s.me.maxdb.toInt
    let mn := s.me.mindb.toInt
    let pct := F64.fsub 0x3FF0000000000000 (F64.fdiv s.me.vol 0xC03E000000000000)
    let line := F64.fadd (F64.i2f mn) (F64.fmul (F64.i2f (mx - mn)) pct)
    let tap := F64.fadd (F64.i2f mx) (F64.fmul 0x408F400000000000 (F64.log2 pct))
    let chosen := if F64.lt tap line then line else tap
    exec .vcTaper s = .next { s with ports := s.ports.set s.active { s.me with
      res := if F64.le pct 0 then F64.i2f mn
        else if F64.lt (F64.i2f mx) chosen then F64.i2f mx else chosen
      seq := { s.me.seq with phase := .idle, op := none } } }

/-- R147, R149: the run step of VC.SEG on an in-range `VOL`, with its whole frame: the three segments unrolled, and no
segment's denominator is ever zero, so `SEG_ZERO_DENOM` is not raised. -/
def Obligations.SegRunStepWritesRes : Prop :=
  ∀ s : State, s.Running → inRange s.me.vol = true →
    let vol := s.me.vol
    let rf := F64.i2f (s.me.maxdb.toInt - s.me.mindb.toInt)
    let half := F64.fdiv (F64.fsub 0 rf) 0x4000000000000000
    let fs := if F64.lt half (F64.fsub 0 rf) then rf else half
    let y1 := F64.fsub fs (F64.fdiv (F64.fadd rf fs) 0x4000000000000000)
    let t0 := F64.fdiv (F64.fmul fs (F64.fsub vol 0)) 0xC03E000000000000
    let t1 := F64.fdiv (F64.fmul y1 (F64.fsub vol 0xC014000000000000)) 0xC039000000000000
    let t2 := F64.fdiv (F64.fmul (F64.fsub 0 rf) (F64.fsub vol 0xC031000000000000)) 0xC02A000000000000
    let acc0 := if F64.lt t0 0 then t0 else 0
    let acc1 := if F64.le vol 0xC014000000000000 && F64.lt t1 acc0 then t1 else acc0
    let acc2 := if F64.le vol 0xC031000000000000 && F64.lt t2 acc1 then t2 else acc1
    exec .vcSeg s = .next { s with ports := s.ports.set s.active { s.me with
      res := F64.fadd acc2 (F64.i2f s.me.maxdb.toInt)
      seq := { s.me.seq with phase := .idle, op := none } } }

/-- R142, R156, R177: the run step of each VC command on an out-of-range `VOL`: `RES` is `min_db`, and one diagnostic is
raised with the offending pattern, the curve and the port; nothing else changes. -/
def Obligations.OutOfRangeVolumeIsDiagnosed : Prop :=
  ∀ (k : Curve) (s : State), s.Running → outOfRange s.me.vol = true →
    exec (.vc k) s = .next { s with
      diagCnt := s.diagCnt + 1
      diagVol := s.me.vol
      diagSrc := BitVec.ofNat 64 (s.active % 256 * 256 + (match k with | .flat => 0 | .taper => 1 | .seg => 2))
      ports := s.ports.set s.active { s.me with
        res := F64.i2f s.me.mindb.toInt
        seq := { s.me.seq with phase := .idle, op := none } } }

/-- R178: a VC command with `VOL = -144.0` completes with `RES = min_db` and raises nothing. -/
def Obligations.MuteSentinelIsSilent : Prop :=
  ∀ (k : Curve) (s : State), s.Running → s.me.vol = 0xC062000000000000 →
    exec (.vc k) s = .next { s with ports := s.ports.set s.active { s.me with
      res := F64.i2f s.me.mindb.toInt
      seq := { s.me.seq with phase := .idle, op := none } } }

/-- R149: the guard of the Segmented curve is kept, with its fault code and the segment's index: a segment with x-intercept
-30 would raise it. With the intercepts 0, -5 and -17 it never fires, whatever the volume and the range. -/
def Obligations.ZeroDenominatorGuardIsKeptAndDead : Prop :=
  (∀ (vol y acc : Word) (rest : List (Word × Word)) (i : Nat), F64.le vol 0xC03E000000000000 = true →
    segmentLoop vol ((0xC03E000000000000, y) :: rest) i acc = .error i) ∧
  (∀ (s : State) (i : Nat), s.halted = false → volumeRun .seg (.zeroDenominator i) s =
    { s with fault := BitVec.ofNat 64 (s.active % 256 * 256 + 2), finfo := BitVec.ofNat 64 i }) ∧
  (∀ (vol : Word) (mx mn : Int) (i : Nat), segmented vol mx mn ≠ .zeroDenominator i)

/-- R143, R147, R152: at `0.0`, and at `-0.0`, Flat and Segmented give `max_db` exactly, and at `-30.0` they give `min_db`
exactly: Flat for every pair of `i32`, Segmented for every pair with `min_db <= max_db`. -/
def Obligations.CurveEndpointsAreExact : Prop :=
  ∀ mx mn : Half,
    (flat 0x0000000000000000 mx.toInt mn.toInt = .value (F64.i2f mx.toInt) false ∧
      flat 0x8000000000000000 mx.toInt mn.toInt = .value (F64.i2f mx.toInt) false ∧
      flat 0xC03E000000000000 mx.toInt mn.toInt = .value (F64.i2f mn.toInt) false) ∧
    (mn.toInt ≤ mx.toInt →
      segmented 0x0000000000000000 mx.toInt mn.toInt = .value (F64.i2f mx.toInt) false ∧
      segmented 0x8000000000000000 mx.toInt mn.toInt = .value (F64.i2f mx.toInt) false ∧
      segmented 0xC03E000000000000 mx.toInt mn.toInt = .value (F64.i2f mn.toInt) false)

/-- R144, R145, R146 (P2), R152: the Tapered curve at its ends and at the halfway point, exactly, for every pair of `i32` with
`min <= max`: at `-15.0` it is `max - 1000` where the range is at least 2000, else the straight line. -/
def Obligations.TaperedExactPoints : Prop :=
  ∀ mx mn : Half, mn.toInt ≤ mx.toInt →
    tapered 0x0000000000000000 mx.toInt mn.toInt = .value (F64.i2f mx.toInt) false ∧
    tapered 0x8000000000000000 mx.toInt mn.toInt = .value (F64.i2f mx.toInt) false ∧
    tapered 0xC03E000000000000 mx.toInt mn.toInt = .value (F64.i2f mn.toInt) false ∧
    tapered 0xC02E000000000000 mx.toInt mn.toInt = .value
      (if 2000 ≤ mx.toInt - mn.toInt then F64.i2f (mx.toInt - 1000)
        else F64.fdiv (F64.i2f (mx.toInt + mn.toInt)) 0x4000000000000000) false

/-- R146 (P2): `LOG2` is exact on every power of two that R144 can pass it. -/
def Obligations.Log2IsExactOnPowersOfTwo : Prop :=
  ∀ k : Nat, k ≤ 1074 → F64.log2 (F64.round false 1 (-(k : Int))) = F64.i2f (-(k : Int))

/-- R146 (P3), its first half: `LOG2` of a value strictly between 0 and 1 is negative and finite, whichever of the admitted
results it takes. -/
def Obligations.Log2IsNegativeAndFinite : Prop :=
  ∀ x : Word, F64.lt 0 x = true → F64.lt x 0x3FF0000000000000 = true →
    F64.lt (F64.log2 x) 0 = true ∧ F64.lt 0xFFF0000000000000 (F64.log2 x) = true

/-- R146 (P3), its second half: `LOG2` of a value strictly between 0 and 1 is within one unit in the last place of the real
logarithm, whichever of the admitted results it takes; the unit is that of the binade the real logarithm lies in (log 2). -/
def Obligations.Log2IsWithinOneUnit : Prop :=
  ∀ (x : Word) (r : ℚ), F64.rat x = some r → 0 < r → r < 1 →
    ∃ l : ℚ, F64.rat (F64.log2 x) = some l ∧
      |(l : ℝ) - Real.logb 2 (r : ℝ)| ≤ (2 : ℝ) ^ (Int.log 2 |Real.logb 2 (r : ℝ)| - 52)

/-- The frame of INIT, DRAW, VC and FMTQ, in every phase: nothing is stored to memory; every other port, every operand
register, `TOK` and everything around the ports are unchanged; INIT leaves `RES`; only INIT and DRAW touch the generator,
`SEEDED` and the lock; only VC touches the diagnostic registers; only DRAW writes `FAULT` and `FINFO`, the guard of VC.SEG
being dead (R149); `CMD` changes only where the port was idle; and no byte write is begun (R65). -/
def Obligations.RegisterCommandsFrame : Prop :=
  ∀ (i : Instr) (s t : State),
    (i = .init ∨ i = .draw ∨ (∃ k, i = .vc k) ∨ (∃ f, i = .fmtq f)) → s.active < s.ports.length →
    exec i s = .next t →
    s.SameOtherPorts t ∧ s.me.SameOperands t.me ∧ t.me.tok = s.me.tok ∧ s.SameSurroundings t ∧
      (∀ a, t.readByte a = s.readByte a) ∧
      (i = .init → t.me.res = s.me.res) ∧
      (i ≠ .init → t.seeded = s.seeded) ∧
      (i ≠ .init → i ≠ .draw → s.SameGenerator t) ∧
      ((∀ k, i ≠ .vc k) → s.SameDiagnostics t) ∧
      (i ≠ .draw → t.fault = s.fault ∧ t.finfo = s.finfo) ∧
      (s.me.seq.phase ≠ .idle → t.me.cmd = s.me.cmd) ∧
      t.me.seq.out = s.me.seq.out

/-! ## Registers, faults and the whole machine -/

/-- R25: the bits of `STATUS`; the reserved bits read 0. -/
def Obligations.StatusBitsReadAsDefined : Prop :=
  ∀ (s : State) (p : Nat) (j : Nat), (statusWord s p).getLsbD j =
    (decide (j = 0 ∧ (s.port p).seq.phase ≠ .idle) || decide (j = 1 ∧ (s.port p).seq.phase = .waitLock) ||
      decide (j = 2 ∧ s.lock = .held p) || (decide (j = 8) && s.seeded) || decide (j = 9 ∧ s.fault ≠ 0))

/-- R14, R34: every offset names its register. Reading: the register of each offset, an operand register narrower than 64
bits zero-extended (`NFR`) or sign-extended (`MAXDB`, `MINDB`), the shared registers the same in every window. Writing: a
write to an operand register of an idle port puts the value, or its low 32 bits, into that register of that port and
changes nothing else of the block; so it reads back, and no other slot of any window reads differently. -/
def Obligations.OperandRegistersReadBack : Prop :=
  (∀ (s : State) (p : Nat),
    regRead s p 0 = (s.port p).cmd ∧ regRead s p 1 = statusWord s p ∧ regRead s p 2 = (s.port p).buf ∧
      regRead s p 3 = (s.port p).nfr.setWidth 64 ∧ regRead s p 4 = (s.port p).tok ∧ regRead s p 5 = (s.port p).seed ∧
      regRead s p 6 = (s.port p).vol ∧ regRead s p 7 = (s.port p).maxdb.signExtend 64 ∧
      regRead s p 8 = (s.port p).mindb.signExtend 64 ∧ regRead s p 9 = (s.port p).res ∧
      regRead s p 10 = (s.port p).hs ∧ regRead s p 16 = s.fault ∧ regRead s p 17 = s.finfo ∧
      regRead s p 18 = s.diagCnt ∧ regRead s p 19 = s.diagVol ∧ regRead s p 20 = s.diagSrc) ∧
  (∀ (s : State) (p : Nat) (v : Word), s.halted = false → s.busy p = false →
    let wrote (q : Port) : Outcome State := .next { s with active := p, ports := s.ports.set p q }
    hostWrite p 2 v s = wrote { s.port p with buf := v } ∧
      hostWrite p 3 v s = wrote { s.port p with nfr := v.setWidth 32 } ∧
      hostWrite p 4 v s = wrote { s.port p with tok := v } ∧
      hostWrite p 5 v s = wrote { s.port p with seed := v } ∧
      hostWrite p 6 v s = wrote { s.port p with vol := v } ∧
      hostWrite p 7 v s = wrote { s.port p with maxdb := v.setWidth 32 } ∧
      hostWrite p 8 v s = wrote { s.port p with mindb := v.setWidth 32 } ∧
      hostWrite p 9 v s = wrote { s.port p with res := v } ∧
      hostWrite p 10 v s = wrote { s.port p with hs := v }) ∧
  (∀ (s : State) (p : Nat) (k : Slot) (v : Word), s.halted = false → s.busy p = false → p < s.ports.length →
    2 ≤ k.toNat → k.toNat ≤ 10 →
    ∃ t, hostWrite p k v s = .next t ∧
      regRead t p k = (if k.toNat = 3 then (v.setWidth 32).setWidth 64
        else if k.toNat = 7 ∨ k.toNat = 8 then (v.setWidth 32).signExtend 64 else v) ∧
      ∀ q j, (q, j) ≠ (p, k) → regRead t q j = regRead s q j)

/-- R35: a reserved offset reads 0, and a write to a reserved or read-only offset of an idle port changes nothing. -/
def Obligations.ReservedOffsetsDoNothing : Prop :=
  (∀ (s : State) (p : Nat) (k : Slot), (11 ≤ k.toNat ∧ k.toNat ≤ 15) ∨ 21 ≤ k.toNat → regRead s p k = 0) ∧
  (∀ (s : State) (p : Nat) (k : Slot) (v : Word), s.busy p = false → p < s.ports.length →
    k.toNat = 1 ∨ 11 ≤ k.toNat → hostWrite p k v s = .next { s with active := p })

/-- R36, R175: the checks of a register write, first to last: halted, it is ignored; busy, `BUSY_VIOLATION` with the byte
offset; an illegal word, `ILLEGAL_CMD` with the value; a SYN or ENC with a sentinel format, `FMT_SENTINEL` with the
code. -/
def Obligations.RegisterWriteChecksInOrder : Prop :=
  ∀ (s : State) (p : Nat) (k : Slot) (v : Word), p < s.ports.length →
    (s.halted = true → hostWrite p k v s = .next { s with active := p }) ∧
    (s.halted = false → s.busy p = true → hostWrite p k v s = .next { s with
      active := p
      fault := BitVec.ofNat 64 (p % 256 * 256 + 4)
      finfo := BitVec.ofNat 64 (8 * k.toNat) }) ∧
    (s.halted = false → s.busy p = false → k = 0 → (∀ i, decode v ≠ .ok i) → hostWrite p k v s = .next { s with
      active := p
      fault := BitVec.ofNat 64 (p % 256 * 256 + 3)
      finfo := v }) ∧
    (∀ i, s.halted = false → s.busy p = false → k = 0 → decode v = .ok i → i.isRejected = true →
      hostWrite p k v s = .next { s with
        active := p
        fault := BitVec.ofNat 64 (p % 256 * 256 + 1)
        finfo := i.fields.sub.zeroExtend 64 })

/-- R172, R173, R174, R176. A fault is precise: whatever agent's step raises it, no port is then between two byte writes of
one sample (log 18), and the step changes no memory, no generator, no diagnostic register, no register and no sequencer of
any port; the lock only where an acquire step took it. A halted block is frozen: whatever agent moves, the generator, the
lock, the fault and diagnostic registers and every register and sequencer of every port stay as they are, and memory is as
before but for one byte where a host's own store writes it. -/
def Obligations.HaltedBlockIsFrozen : Prop :=
  (∀ (s t : State) (g : Agent), agentAct g s = .next t → s.halted = false → t.halted = true →
    s.midSample = false ∧ t.mem = s.mem ∧ t.dither = s.dither ∧ t.seeded = s.seeded ∧ s.SameDiagnostics t ∧
      (t.lock = s.lock ∨ ∃ p, g = .sequencer p ∧ s.lock = .free ∧ t.lock = .held p) ∧
      t.ports.length = s.ports.length ∧ ∀ p, { t.port p with prog := [] } = { s.port p with prog := [] }) ∧
  ∀ s t : State, s.halted = true → step s = .next t →
    s.SameGenerator t ∧ t.fault = s.fault ∧ t.finfo = s.finfo ∧ s.SameDiagnostics t ∧ t.cfg = s.cfg ∧
      t.ports.length = s.ports.length ∧
      (∀ p, { t.port p with prog := [] } = { s.port p with prog := [] }) ∧
      (t.mem = s.mem ∨ ∃ p a b rest, (s.port p).prog = .store a b :: rest ∧ (t.port p).prog = rest ∧
        admitted s.platform a = true ∧ t.mem = Memory.writeByte s.mem a.toNat b)

/-- The state after reset, for every choice of parameters, number of ports and platform: it meets the invariant; every offset
of every window reads 0, `SEEDED` is 0, `LOCK` is free and every sequencer is idle (R37, R195). Nothing is said of the values
the rule calls unspecified, which are the model's (log 6, log 7). -/
def Obligations.ResetMeetsTheInvariant : Prop :=
  (∀ (cfg : Config.Params) (n : Nat) (platform : List Region),
    (State.resetWith cfg n platform).Inv ∧
      (∀ p k, regRead (State.resetWith cfg n platform) p k = 0) ∧
      (State.resetWith cfg n platform).seeded = false ∧ (State.resetWith cfg n platform).lock = .free ∧
      (∀ p, ((State.resetWith cfg n platform).port p).seq.phase = .idle) ∧
      (State.resetWith cfg n platform).ports.length = n) ∧
  State.reset.Inv

/-- Every step keeps the invariant: the memory's canonical form, a busy port running the command `CMD` holds, the stream of a
SYN in its range with the cursor right after the samples made, the byte writes left of a sample in the buffer of their
command, at most one port running under the lock, no draw before the seed, well-formed fault and diagnostic registers, and
whole samples in a halted block (R13, R24, R26, R27, R30, R31, R32, R49, R95, R98, R176). -/
def Obligations.StepKeepsTheInvariant : Prop :=
  ∀ s t : State, s.Inv → step s = .next t → t.Inv

/-- R38, R12, R28: no step changes the build parameters, the number of ports or the platform; nothing clears `SEEDED`; and
`DIAGCNT` stays or counts up by one, modulo `2^64`. -/
def Obligations.StepKeepsBuildParameters : Prop :=
  ∀ s t : State, step s = .next t →
    t.cfg = s.cfg ∧ t.ports.length = s.ports.length ∧ t.platform = s.platform ∧
      (s.seeded = true → t.seeded = true) ∧ (t.diagCnt = s.diagCnt ∨ t.diagCnt = s.diagCnt + 1)

/-- R52, R95: whatever agent moves, DitherState changes only in a step of the sequencer of the port that holds the lock; and
while a port holds the lock, no step but one of that port's sequencer moves it. -/
def Obligations.GeneratorMovesOnlyUnderTheLock : Prop :=
  ∀ (s t : State) (g : Agent), s.Inv → agentAct g s = .next t →
    (t.dither ≠ s.dither → ∃ p, g = .sequencer p ∧ s.lock = .held p) ∧
    (∀ p, s.lock = .held p → g ≠ .sequencer p → t.lock = s.lock)

/-- R186: with `LOCK_GRAIN = CALL` the sequencer of the port that holds the lock always has an enabled step, which changes its
port, unless the block is halted or the platform does not admit its write. The same with `LOCK_GRAIN = SAMPLE`, which R186
does not speak of, rests on R137 and on the phases that log 15 chooses. -/
def Obligations.LockHolderCanMove : Prop :=
  ∀ (s : State) (p : Nat), s.Inv → s.halted = false → s.lock = .held p →
    (∃ t, agentAct (.sequencer p) s = .next t ∧ t.port p ≠ s.port p) ∨
      ∃ a, agentAct (.sequencer p) s = .fault (.stuck a)

/-- R196: DitherState before the first INIT is read by no step: two states that differ in it alone, with `SEEDED = 0`, take
the same step, and differ in it alone after it, or not at all where the step was an INIT's. -/
def Obligations.UnseededGeneratorIsNeverRead : Prop :=
  ∀ (s : State) (d : Dither), s.Inv → s.seeded = false →
    match step s, step { s with dither := d } with
    | .next t, .next u => if t.seeded then u = t else u = { t with dither := d }
    | .fault r, .fault q => r = q
    | .refused r, .refused q => r = q
    | _, _ => False
end

