-- ==== Sys2Proof/WellFormed.lean ====
section
/-! DEFINITION. WellFormed.lean: the conditions of R66 under which fields written to `CMD` are a command, each as a
check of its own. Every term of `Instr` is a legal command (a sentinel format is a legal encoding, R62), and every term
of `Slot` is an aligned offset, so the ill-formed terms are those of `CommandFields`. -/

namespace Sys2Proof.CommandFields

/-- R66: `v[63:32] = 0`. -/
def highHalfZero (c : CommandFields) : Bool := c.high == 0

/-- R66: `Z = 0`. -/
def reservedBitsZero (c : CommandFields) : Bool := c.z == 0

/-- R66: `OPC` is 0x1 to 0x6. -/
def opcodeAssigned (c : CommandFields) : Bool := 1 ≤ c.opc.toNat && c.opc.toNat ≤ 6

/-- R66: `DTH = 1` only where `OPC = 0x3`. -/
def ditherFlagInPlace (c : CommandFields) : Bool := !c.dth || c.opc == 3

/-- R66: `SUB = 0` where `OPC` is 0x1 or 0x2. -/
def subZeroWhereUnused (c : CommandFields) : Bool := !(c.opc == 1 || c.opc == 2) || c.sub == 0

/-- R66: `SUB <= 2` where `OPC = 0x4`. -/
def curveAssigned (c : CommandFields) : Bool := !(c.opc == 4) || c.sub.toNat ≤ 2

/-- The fields are exactly one command: none of the conditions of R66 holds. -/
def wellFormed (c : CommandFields) : Bool :=
  c.highHalfZero && c.reservedBitsZero && c.opcodeAssigned && c.ditherFlagInPlace && c.subZeroWhereUnused
    && c.curveAssigned

end Sys2Proof.CommandFields
end

