-- ==== Sys2Proof/Laws/Decode.lean ====
section
/-! SUPPORT. Laws/Decode.lean: the fields of a value determine it, the fields of a command's value are the command's own, and
the maps between codes and tags are inverse to each other. -/

namespace Sys2Proof

/-- The fields as numbers. -/
theorem fieldsOf_toNat (v : Word) :
    (fieldsOf v).high.toNat = v.toNat / 2 ^ 32 ∧ (fieldsOf v).opc.toNat = v.toNat / 2 ^ 28 % 16 ∧
      (fieldsOf v).sub.toNat = v.toNat / 2 ^ 24 % 16 ∧ (fieldsOf v).dth = decide (v.toNat / 2 ^ 23 % 2 = 1) ∧
      (fieldsOf v).z.toNat = v.toNat % 2 ^ 23 := by
  have hv := v.isLt
  refine ⟨?_, ?_, ?_, ?_, ?_⟩
  · simp only [fieldsOf, BitVec.extractLsb'_toNat, Nat.shiftRight_eq_div_pow]
    exact Nat.mod_eq_of_lt (by omega)
  · simp [fieldsOf, Nat.shiftRight_eq_div_pow]
  · simp [fieldsOf, Nat.shiftRight_eq_div_pow]
  · simp [fieldsOf, BitVec.getLsbD, Nat.testBit_eq_decide_div_mod_eq]
  · simp [fieldsOf]

/-- A number is put together from the parts the fields are read from. -/
theorem split_at_fields (n : Nat) :
    n = n / 2 ^ 32 * 2 ^ 32 + n / 2 ^ 28 % 16 * 2 ^ 28 + n / 2 ^ 24 % 16 * 2 ^ 24 + n / 2 ^ 23 % 2 * 2 ^ 23
      + n % 2 ^ 23 := by
  omega

/-- Parities that agree on being odd agree. -/
theorem mod_two_eq_of_iff {a b : Nat} (h : a % 2 = 1 ↔ b % 2 = 1) : a % 2 = b % 2 := by
  omega

/-- Two values with the same fields are the same value. -/
theorem fieldsOf_injective {v w : Word} (h : fieldsOf v = fieldsOf w) : v = w := by
  obtain ⟨h1, h2, h3, h4, h5⟩ := fieldsOf_toNat v
  obtain ⟨g1, g2, g3, g4, g5⟩ := fieldsOf_toNat w
  rw [h] at h1 h2 h3 h4 h5
  have bit := mod_two_eq_of_iff (decide_eq_decide.mp (h4.symm.trans g4))
  apply BitVec.eq_of_toNat_eq
  rw [split_at_fields v.toNat, split_at_fields w.toNat, bit, ← h1, ← h2, ← h3, ← h5, g1, g2, g3, g5]

/-- The fields of the value a command is issued with are the command's fields. -/
theorem fieldsOf_commandValue (i : Instr) : fieldsOf (commandValue i) = i.fields := by
  cases i <;> first | (rename_i d; cases d <;> rfl) | rfl

/-- Every code is the code of its tag (R62). -/
theorem code_ofCode (c : BitVec 4) : (Format.ofCode c).code = c := by
  have h : ∀ n : Fin 16, (Format.ofCode (BitVec.ofNat 4 n)).code = BitVec.ofNat 4 n := by decide
  simpa using h ⟨c.toNat, c.isLt⟩

/-- Every tag is the tag of its code (R62). -/
theorem ofCode_code (f : Format) : Format.ofCode f.code = f := by cases f <;> rfl

end Sys2Proof
end

