-- ==== Sys2Proof/Laws/Memory.lean ====
section
/-! SUPPORT. Laws/Memory.lean: every memory operation keeps the canonical form, and what a byte reads as after one byte is
written. -/

namespace Sys2Proof.Machine.Memory

/-- A written byte's address is its own or one that was listed. -/
theorem mem_writeByte {m : Memory} {a : Nat} {b : Byte} {x : Host.Cell} (h : x ∈ m.writeByte a b) :
    x = (a, b) ∨ x ∈ m := by
  induction m with
  | nil => simpa [writeByte] using h
  | cons c rest ih =>
    simp only [writeByte] at h
    split at h
    · simpa using h
    · split at h
      · rename_i hk
        rcases List.mem_cons.mp h with h | h
        · exact .inl (by rw [h, hk])
        · exact .inr (List.mem_cons_of_mem _ h)
      · rcases List.mem_cons.mp h with h | h
        · exact .inr (by simp [h])
        · exact (ih h).imp id (List.mem_cons_of_mem _)

/-- One byte's write keeps the canonical form. -/
theorem writeByte_wf {m : Memory} {a : Nat} {b : Byte} (hm : m.wf) (ha : a < 2 ^ 64) : (m.writeByte a b).wf := by
  refine ⟨?_, fun x hx => (mem_writeByte hx).elim (fun h => by rw [h]; exact ha) (hm.2 x)⟩
  have hs := hm.1
  clear hm
  induction m with
  | nil => simp [writeByte]
  | cons c rest ih =>
    have hc := List.pairwise_cons.mp hs
    simp only [writeByte]
    split
    · rename_i hlt
      refine List.pairwise_cons.mpr ⟨fun x hx => ?_, hs⟩
      rcases List.mem_cons.mp hx with h | h
      · rw [h]; exact hlt
      · exact Nat.lt_trans hlt (hc.1 x h)
    · split
      · exact List.pairwise_cons.mpr ⟨hc.1, hc.2⟩
      · rename_i h1 h2
        refine List.pairwise_cons.mpr ⟨fun x hx => ?_, ih hc.2⟩
        rcases mem_writeByte hx with h | h
        · rw [h]; show c.1 < a; omega
        · exact hc.1 x h

/-- The writes of a `MemWrite` keep the canonical form. -/
theorem writeBytes_wf {m : Memory} (addr : Word) (bytes : List Byte) (hm : m.wf) : (m.writeBytes addr bytes).wf := by
  induction bytes generalizing m addr with
  | nil => exact hm
  | cons b rest ih => exact ih (addr + 1) (writeByte_wf hm addr.isLt)

/-- An address below every listed one has no value. -/
theorem readByte_none {m : Memory} {a : Nat} (h : ∀ x ∈ m, a < x.1) : m.readByte a = none := by
  induction m with
  | nil => rfl
  | cons c rest ih =>
    have hc : a < c.1 := h c (by simp)
    simp only [readByte]
    rw [if_neg (by omega)]
    exact ih fun x hx => h x (List.mem_cons_of_mem _ hx)

/-- A byte reads back as the value written to it. -/
theorem readByte_writeByte_same (m : Memory) (a : Nat) (b : Byte) : (m.writeByte a b).readByte a = some b := by
  induction m with
  | nil => simp [writeByte, readByte]
  | cons c rest ih =>
    simp only [writeByte]
    split
    · simp [readByte]
    · split
      · rename_i h; simp [readByte, h]
      · rename_i h; simp [readByte, h, ih]

/-- A write leaves every other byte alone. -/
theorem readByte_writeByte_other (m : Memory) (a b' : Nat) (b : Byte) (h : b' ≠ a) :
    (m.writeByte a b).readByte b' = m.readByte b' := by
  induction m with
  | nil => simp [writeByte, readByte, h]
  | cons c rest ih =>
    simp only [writeByte]
    split
    · simp [readByte, h]
    · split
      · rename_i hk; simp [readByte, ← hk, h]
      · simp only [readByte]; split <;> simp [ih]

end Sys2Proof.Machine.Memory

namespace Sys2Proof.Machine

/-- `MemWrite` answers a next state exactly where every address is admitted, and then the first of its byte writes is
performed and the others are left. -/
theorem memWrite_cases (addr : Word) (bytes : List Byte) (s : State) :
    (∃ a, firstNotAdmitted s.platform addr bytes.length = some a ∧ memWrite addr bytes s = .fault (.stuck a)) ∨
      (firstNotAdmitted s.platform addr bytes.length = none ∧
        memWrite addr bytes s = .next (writeNextByte (s.setMe (s.me.withOut (byteWrites addr bytes))))) := by
  unfold memWrite
  cases firstNotAdmitted s.platform addr bytes.length <;> simp

/-- The next byte write of a port: nothing where none is left, else one byte of memory. -/
theorem writeNextByte_cases (s : State) :
    (s.me.seq.out = [] ∧ writeNextByte s = s) ∨
      ∃ a b rest, s.me.seq.out = (a, b) :: rest ∧ writeNextByte s =
        { s.setMe (s.me.withOut rest) with mem := Memory.writeByte s.mem a.toNat b } := by
  unfold writeNextByte
  rcases s.me.seq.out with _ | ⟨⟨a, b⟩, rest⟩ <;> simp

@[simp] theorem length_byteWrites (addr : Word) (bytes : List Byte) : (byteWrites addr bytes).length = bytes.length := by
  induction bytes generalizing addr with
  | nil => rfl
  | cons b rest ih => simp [byteWrites, ih]

/-- The address of the `k`-th byte write of a `MemWrite` is `addr + k` (R42). -/
theorem mem_byteWrites {addr : Word} {bytes : List Byte} {w : Word × Byte} (h : w ∈ byteWrites addr bytes) :
    ∃ k, k < bytes.length ∧ w.1 = addr + BitVec.ofNat 64 k ∧ bytes[k]? = some w.2 := by
  induction bytes generalizing addr with
  | nil => simp [byteWrites] at h
  | cons b rest ih =>
    simp only [byteWrites, List.mem_cons] at h
    rcases h with rfl | h
    · exact ⟨0, by simp, by simp, by simp⟩
    · obtain ⟨k, hk, ha, hb⟩ := ih h
      refine ⟨k + 1, by simpa using hk, ?_, by simpa using hb⟩
      rw [ha, BitVec.ofNat_add, BitVec.add_assoc, BitVec.add_comm (BitVec.ofNat 64 k)]
      rfl

/-- Where every one of the `n` addresses is admitted, none is reported. -/
theorem firstNotAdmitted_none (platform : List Region) (addr : Word) (n : Nat)
    (h : ∀ k, k < n → admitted platform (addr + BitVec.ofNat 64 k) = true) : firstNotAdmitted platform addr n = none := by
  induction n generalizing addr with
  | zero => rfl
  | succ n ih =>
    have h0 : admitted platform addr = true := by simpa using h 0 (by omega)
    rw [firstNotAdmitted, if_pos h0]
    refine ih (addr + 1) fun k hk => ?_
    have hk1 := h (k + 1) (by omega)
    rwa [show addr + 1 + BitVec.ofNat 64 k = addr + BitVec.ofNat 64 (k + 1) from by
      rw [BitVec.ofNat_add, BitVec.add_assoc, BitVec.add_comm (1 : Word)]; rfl]

end Sys2Proof.Machine
end

