-- ==== Sys2Proof/Laws/State.lean ====
section
/-! SUPPORT. Laws/State.lean: what each update of the state leaves in each field, so that no later proof unfolds a record
update; and what reading a port gives after writing one. -/

namespace Sys2Proof.Machine

namespace State

@[simp] theorem setPort_cfg (s : State) (p : Nat) (q : Port) : (s.setPort p q).cfg = s.cfg := rfl
@[simp] theorem setPort_dither (s : State) (p : Nat) (q : Port) : (s.setPort p q).dither = s.dither := rfl
@[simp] theorem setPort_seeded (s : State) (p : Nat) (q : Port) : (s.setPort p q).seeded = s.seeded := rfl
@[simp] theorem setPort_lock (s : State) (p : Nat) (q : Port) : (s.setPort p q).lock = s.lock := rfl
@[simp] theorem setPort_fault (s : State) (p : Nat) (q : Port) : (s.setPort p q).fault = s.fault := rfl
@[simp] theorem setPort_finfo (s : State) (p : Nat) (q : Port) : (s.setPort p q).finfo = s.finfo := rfl
@[simp] theorem setPort_diagCnt (s : State) (p : Nat) (q : Port) : (s.setPort p q).diagCnt = s.diagCnt := rfl
@[simp] theorem setPort_diagVol (s : State) (p : Nat) (q : Port) : (s.setPort p q).diagVol = s.diagVol := rfl
@[simp] theorem setPort_diagSrc (s : State) (p : Nat) (q : Port) : (s.setPort p q).diagSrc = s.diagSrc := rfl
@[simp] theorem setPort_mem (s : State) (p : Nat) (q : Port) : (s.setPort p q).mem = s.mem := rfl
@[simp] theorem setPort_platform (s : State) (p : Nat) (q : Port) : (s.setPort p q).platform = s.platform := rfl
@[simp] theorem setPort_active (s : State) (p : Nat) (q : Port) : (s.setPort p q).active = s.active := rfl
@[simp] theorem setPort_sched (s : State) (p : Nat) (q : Port) : (s.setPort p q).sched = s.sched := rfl
@[simp] theorem setPort_choices (s : State) (p : Nat) (q : Port) : (s.setPort p q).choices = s.choices := rfl
@[simp] theorem setPort_reads (s : State) (p : Nat) (q : Port) : (s.setPort p q).reads = s.reads := rfl
@[simp] theorem setPort_ports (s : State) (p : Nat) (q : Port) : (s.setPort p q).ports = s.ports.set p q := rfl

@[simp] theorem setMe_cfg (s : State) (q : Port) : (s.setMe q).cfg = s.cfg := rfl
@[simp] theorem setMe_dither (s : State) (q : Port) : (s.setMe q).dither = s.dither := rfl
@[simp] theorem setMe_seeded (s : State) (q : Port) : (s.setMe q).seeded = s.seeded := rfl
@[simp] theorem setMe_lock (s : State) (q : Port) : (s.setMe q).lock = s.lock := rfl
@[simp] theorem setMe_fault (s : State) (q : Port) : (s.setMe q).fault = s.fault := rfl
@[simp] theorem setMe_finfo (s : State) (q : Port) : (s.setMe q).finfo = s.finfo := rfl
@[simp] theorem setMe_diagCnt (s : State) (q : Port) : (s.setMe q).diagCnt = s.diagCnt := rfl
@[simp] theorem setMe_diagVol (s : State) (q : Port) : (s.setMe q).diagVol = s.diagVol := rfl
@[simp] theorem setMe_diagSrc (s : State) (q : Port) : (s.setMe q).diagSrc = s.diagSrc := rfl
@[simp] theorem setMe_mem (s : State) (q : Port) : (s.setMe q).mem = s.mem := rfl
@[simp] theorem setMe_platform (s : State) (q : Port) : (s.setMe q).platform = s.platform := rfl
@[simp] theorem setMe_active (s : State) (q : Port) : (s.setMe q).active = s.active := rfl
@[simp] theorem setMe_sched (s : State) (q : Port) : (s.setMe q).sched = s.sched := rfl
@[simp] theorem setMe_choices (s : State) (q : Port) : (s.setMe q).choices = s.choices := rfl
@[simp] theorem setMe_reads (s : State) (q : Port) : (s.setMe q).reads = s.reads := rfl
@[simp] theorem setMe_ports (s : State) (q : Port) : (s.setMe q).ports = s.ports.set s.active q := rfl

@[simp] theorem withProg_cfg (s : State) (p : Nat) (l : List HostAction) : (s.withProg p l).cfg = s.cfg := rfl
@[simp] theorem withProg_dither (s : State) (p : Nat) (l : List HostAction) : (s.withProg p l).dither = s.dither := rfl
@[simp] theorem withProg_seeded (s : State) (p : Nat) (l : List HostAction) : (s.withProg p l).seeded = s.seeded := rfl
@[simp] theorem withProg_lock (s : State) (p : Nat) (l : List HostAction) : (s.withProg p l).lock = s.lock := rfl
@[simp] theorem withProg_fault (s : State) (p : Nat) (l : List HostAction) : (s.withProg p l).fault = s.fault := rfl
@[simp] theorem withProg_finfo (s : State) (p : Nat) (l : List HostAction) : (s.withProg p l).finfo = s.finfo := rfl
@[simp] theorem withProg_diagCnt (s : State) (p : Nat) (l : List HostAction) : (s.withProg p l).diagCnt = s.diagCnt := rfl
@[simp] theorem withProg_diagVol (s : State) (p : Nat) (l : List HostAction) : (s.withProg p l).diagVol = s.diagVol := rfl
@[simp] theorem withProg_diagSrc (s : State) (p : Nat) (l : List HostAction) : (s.withProg p l).diagSrc = s.diagSrc := rfl
@[simp] theorem withProg_mem (s : State) (p : Nat) (l : List HostAction) : (s.withProg p l).mem = s.mem := rfl
@[simp] theorem withProg_platform (s : State) (p : Nat) (l : List HostAction) : (s.withProg p l).platform = s.platform := rfl
@[simp] theorem withProg_active (s : State) (p : Nat) (l : List HostAction) : (s.withProg p l).active = s.active := rfl
@[simp] theorem withProg_sched (s : State) (p : Nat) (l : List HostAction) : (s.withProg p l).sched = s.sched := rfl
@[simp] theorem withProg_choices (s : State) (p : Nat) (l : List HostAction) : (s.withProg p l).choices = s.choices := rfl
@[simp] theorem withProg_reads (s : State) (p : Nat) (l : List HostAction) : (s.withProg p l).reads = s.reads := rfl
@[simp] theorem withProg_ports (s : State) (p : Nat) (l : List HostAction) :
    (s.withProg p l).ports = s.ports.set p { s.port p with prog := l } := rfl

@[simp] theorem actingAs_cfg (s : State) (p : Nat) : (s.actingAs p).cfg = s.cfg := rfl
@[simp] theorem actingAs_dither (s : State) (p : Nat) : (s.actingAs p).dither = s.dither := rfl
@[simp] theorem actingAs_seeded (s : State) (p : Nat) : (s.actingAs p).seeded = s.seeded := rfl
@[simp] theorem actingAs_lock (s : State) (p : Nat) : (s.actingAs p).lock = s.lock := rfl
@[simp] theorem actingAs_fault (s : State) (p : Nat) : (s.actingAs p).fault = s.fault := rfl
@[simp] theorem actingAs_finfo (s : State) (p : Nat) : (s.actingAs p).finfo = s.finfo := rfl
@[simp] theorem actingAs_diagCnt (s : State) (p : Nat) : (s.actingAs p).diagCnt = s.diagCnt := rfl
@[simp] theorem actingAs_diagVol (s : State) (p : Nat) : (s.actingAs p).diagVol = s.diagVol := rfl
@[simp] theorem actingAs_diagSrc (s : State) (p : Nat) : (s.actingAs p).diagSrc = s.diagSrc := rfl
@[simp] theorem actingAs_mem (s : State) (p : Nat) : (s.actingAs p).mem = s.mem := rfl
@[simp] theorem actingAs_platform (s : State) (p : Nat) : (s.actingAs p).platform = s.platform := rfl
@[simp] theorem actingAs_sched (s : State) (p : Nat) : (s.actingAs p).sched = s.sched := rfl
@[simp] theorem actingAs_choices (s : State) (p : Nat) : (s.actingAs p).choices = s.choices := rfl
@[simp] theorem actingAs_reads (s : State) (p : Nat) : (s.actingAs p).reads = s.reads := rfl
@[simp] theorem actingAs_ports (s : State) (p : Nat) : (s.actingAs p).ports = s.ports := rfl
@[simp] theorem actingAs_active (s : State) (p : Nat) : (s.actingAs p).active = p := rfl
@[simp] theorem actingAs_me (s : State) (p : Nat) : (s.actingAs p).me = s.port p := rfl
@[simp] theorem actingAs_port (s : State) (p q : Nat) : (s.actingAs p).port q = s.port q := rfl
@[simp] theorem actingAs_halted (s : State) (p : Nat) : (s.actingAs p).halted = s.halted := rfl
@[simp] theorem setPort_halted (s : State) (p : Nat) (q : Port) : (s.setPort p q).halted = s.halted := rfl
@[simp] theorem setMe_halted (s : State) (q : Port) : (s.setMe q).halted = s.halted := rfl
@[simp] theorem withProg_halted (s : State) (p : Nat) (l : List HostAction) : (s.withProg p l).halted = s.halted := rfl

/-! The lemmas on `withGenerator` are proved by cases on the state, so that a proof that uses them never asks the kernel
to compare a DitherState after twenty draws with another one. -/

@[simp] theorem withGenerator_cfg (s : State) (d : Dither) (b : Bool) : (s.withGenerator d b).cfg = s.cfg := by
  cases s; rfl
@[simp] theorem withGenerator_lock (s : State) (d : Dither) (b : Bool) : (s.withGenerator d b).lock = s.lock := by
  cases s; rfl
@[simp] theorem withGenerator_fault (s : State) (d : Dither) (b : Bool) : (s.withGenerator d b).fault = s.fault := by
  cases s; rfl
@[simp] theorem withGenerator_finfo (s : State) (d : Dither) (b : Bool) : (s.withGenerator d b).finfo = s.finfo := by
  cases s; rfl
@[simp] theorem withGenerator_diagCnt (s : State) (d : Dither) (b : Bool) : (s.withGenerator d b).diagCnt = s.diagCnt := by
  cases s; rfl
@[simp] theorem withGenerator_diagVol (s : State) (d : Dither) (b : Bool) : (s.withGenerator d b).diagVol = s.diagVol := by
  cases s; rfl
@[simp] theorem withGenerator_diagSrc (s : State) (d : Dither) (b : Bool) : (s.withGenerator d b).diagSrc = s.diagSrc := by
  cases s; rfl
@[simp] theorem withGenerator_mem (s : State) (d : Dither) (b : Bool) : (s.withGenerator d b).mem = s.mem := by
  cases s; rfl
@[simp] theorem withGenerator_platform (s : State) (d : Dither) (b : Bool) : (s.withGenerator d b).platform = s.platform := by
  cases s; rfl
@[simp] theorem withGenerator_active (s : State) (d : Dither) (b : Bool) : (s.withGenerator d b).active = s.active := by
  cases s; rfl
@[simp] theorem withGenerator_sched (s : State) (d : Dither) (b : Bool) : (s.withGenerator d b).sched = s.sched := by
  cases s; rfl
@[simp] theorem withGenerator_choices (s : State) (d : Dither) (b : Bool) : (s.withGenerator d b).choices = s.choices := by
  cases s; rfl
@[simp] theorem withGenerator_reads (s : State) (d : Dither) (b : Bool) : (s.withGenerator d b).reads = s.reads := by
  cases s; rfl
@[simp] theorem withGenerator_ports (s : State) (d : Dither) (b : Bool) : (s.withGenerator d b).ports = s.ports := by
  cases s; rfl
@[simp] theorem withGenerator_dither (s : State) (d : Dither) (b : Bool) : (s.withGenerator d b).dither = d := by
  cases s; rfl
@[simp] theorem withGenerator_seeded (s : State) (d : Dither) (b : Bool) : (s.withGenerator d b).seeded = b := by
  cases s; rfl

/-- Reading the port just written. -/
theorem port_setPort_same (s : State) (p : Nat) (q : Port) (h : p < s.ports.length) : (s.setPort p q).port p = q := by
  simp [port, setPort, List.getD_eq_getElem?_getD, h]

/-- Writing a port leaves every other port alone. -/
theorem port_setPort_other (s : State) (p r : Nat) (q : Port) (h : r ≠ p) : (s.setPort p q).port r = s.port r := by
  simp [port, setPort, List.getD_eq_getElem?_getD, List.getElem?_set_ne h.symm]

/-- Reading the acting port after writing it. -/
theorem me_setMe (s : State) (q : Port) (h : s.active < s.ports.length) : (s.setMe q).me = q :=
  port_setPort_same s s.active q h

/-- The second of two writes of the acting port stands. -/
@[simp] theorem setMe_setMe (s : State) (q r : Port) : (s.setMe q).setMe r = s.setMe r := by
  simp [setMe, setPort]

/-- A live state has its acting port among its ports. -/
theorem active_lt_of_live {s : State} (h : s.live = true) : s.active < s.ports.length := by
  simp [live] at h; exact h.2

/-- A live state is not halted. -/
theorem not_halted_of_live {s : State} (h : s.live = true) : s.halted = false := by
  simp [live] at h; exact h.1

end State

@[simp] theorem diag_cfg (k : Curve) (w : Word) (s : State) : (diag k w s).cfg = s.cfg := rfl
@[simp] theorem diag_dither (k : Curve) (w : Word) (s : State) : (diag k w s).dither = s.dither := rfl
@[simp] theorem diag_seeded (k : Curve) (w : Word) (s : State) : (diag k w s).seeded = s.seeded := rfl
@[simp] theorem diag_lock (k : Curve) (w : Word) (s : State) : (diag k w s).lock = s.lock := rfl
@[simp] theorem diag_fault (k : Curve) (w : Word) (s : State) : (diag k w s).fault = s.fault := rfl
@[simp] theorem diag_finfo (k : Curve) (w : Word) (s : State) : (diag k w s).finfo = s.finfo := rfl
@[simp] theorem diag_mem (k : Curve) (w : Word) (s : State) : (diag k w s).mem = s.mem := rfl
@[simp] theorem diag_platform (k : Curve) (w : Word) (s : State) : (diag k w s).platform = s.platform := rfl
@[simp] theorem diag_active (k : Curve) (w : Word) (s : State) : (diag k w s).active = s.active := rfl
@[simp] theorem diag_sched (k : Curve) (w : Word) (s : State) : (diag k w s).sched = s.sched := rfl
@[simp] theorem diag_choices (k : Curve) (w : Word) (s : State) : (diag k w s).choices = s.choices := rfl
@[simp] theorem diag_reads (k : Curve) (w : Word) (s : State) : (diag k w s).reads = s.reads := rfl

@[simp] theorem accept_cfg (i : Instr) (s : State) : (accept i s).cfg = s.cfg := rfl
@[simp] theorem accept_dither (i : Instr) (s : State) : (accept i s).dither = s.dither := rfl
@[simp] theorem accept_seeded (i : Instr) (s : State) : (accept i s).seeded = s.seeded := rfl
@[simp] theorem accept_lock (i : Instr) (s : State) : (accept i s).lock = s.lock := rfl
@[simp] theorem accept_fault (i : Instr) (s : State) : (accept i s).fault = s.fault := rfl
@[simp] theorem accept_finfo (i : Instr) (s : State) : (accept i s).finfo = s.finfo := rfl
@[simp] theorem accept_diagCnt (i : Instr) (s : State) : (accept i s).diagCnt = s.diagCnt := rfl
@[simp] theorem accept_diagVol (i : Instr) (s : State) : (accept i s).diagVol = s.diagVol := rfl
@[simp] theorem accept_diagSrc (i : Instr) (s : State) : (accept i s).diagSrc = s.diagSrc := rfl
@[simp] theorem accept_mem (i : Instr) (s : State) : (accept i s).mem = s.mem := rfl
@[simp] theorem accept_platform (i : Instr) (s : State) : (accept i s).platform = s.platform := rfl
@[simp] theorem accept_active (i : Instr) (s : State) : (accept i s).active = s.active := rfl
@[simp] theorem accept_sched (i : Instr) (s : State) : (accept i s).sched = s.sched := rfl
@[simp] theorem accept_choices (i : Instr) (s : State) : (accept i s).choices = s.choices := rfl
@[simp] theorem accept_reads (i : Instr) (s : State) : (accept i s).reads = s.reads := rfl

@[simp] theorem complete_cfg (s : State) : (complete s).cfg = s.cfg := rfl
@[simp] theorem complete_dither (s : State) : (complete s).dither = s.dither := rfl
@[simp] theorem complete_seeded (s : State) : (complete s).seeded = s.seeded := rfl
@[simp] theorem complete_lock (s : State) : (complete s).lock = s.lock := rfl
@[simp] theorem complete_fault (s : State) : (complete s).fault = s.fault := rfl
@[simp] theorem complete_finfo (s : State) : (complete s).finfo = s.finfo := rfl
@[simp] theorem complete_diagCnt (s : State) : (complete s).diagCnt = s.diagCnt := rfl
@[simp] theorem complete_diagVol (s : State) : (complete s).diagVol = s.diagVol := rfl
@[simp] theorem complete_diagSrc (s : State) : (complete s).diagSrc = s.diagSrc := rfl
@[simp] theorem complete_mem (s : State) : (complete s).mem = s.mem := rfl
@[simp] theorem complete_platform (s : State) : (complete s).platform = s.platform := rfl
@[simp] theorem complete_active (s : State) : (complete s).active = s.active := rfl
@[simp] theorem complete_sched (s : State) : (complete s).sched = s.sched := rfl
@[simp] theorem complete_choices (s : State) : (complete s).choices = s.choices := rfl
@[simp] theorem complete_reads (s : State) : (complete s).reads = s.reads := rfl

@[simp] theorem completeLocked_cfg (s : State) : (completeLocked s).cfg = s.cfg := rfl
@[simp] theorem completeLocked_dither (s : State) : (completeLocked s).dither = s.dither := rfl
@[simp] theorem completeLocked_seeded (s : State) : (completeLocked s).seeded = s.seeded := rfl
@[simp] theorem completeLocked_fault (s : State) : (completeLocked s).fault = s.fault := rfl
@[simp] theorem completeLocked_finfo (s : State) : (completeLocked s).finfo = s.finfo := rfl
@[simp] theorem completeLocked_diagCnt (s : State) : (completeLocked s).diagCnt = s.diagCnt := rfl
@[simp] theorem completeLocked_diagVol (s : State) : (completeLocked s).diagVol = s.diagVol := rfl
@[simp] theorem completeLocked_diagSrc (s : State) : (completeLocked s).diagSrc = s.diagSrc := rfl
@[simp] theorem completeLocked_mem (s : State) : (completeLocked s).mem = s.mem := rfl
@[simp] theorem completeLocked_platform (s : State) : (completeLocked s).platform = s.platform := rfl
@[simp] theorem completeLocked_active (s : State) : (completeLocked s).active = s.active := rfl
@[simp] theorem completeLocked_sched (s : State) : (completeLocked s).sched = s.sched := rfl
@[simp] theorem completeLocked_choices (s : State) : (completeLocked s).choices = s.choices := rfl
@[simp] theorem completeLocked_reads (s : State) : (completeLocked s).reads = s.reads := rfl

@[simp] theorem writeRes_cfg (v : Word) (s : State) : (writeRes v s).cfg = s.cfg := rfl
@[simp] theorem writeRes_dither (v : Word) (s : State) : (writeRes v s).dither = s.dither := rfl
@[simp] theorem writeRes_seeded (v : Word) (s : State) : (writeRes v s).seeded = s.seeded := rfl
@[simp] theorem writeRes_lock (v : Word) (s : State) : (writeRes v s).lock = s.lock := rfl
@[simp] theorem writeRes_fault (v : Word) (s : State) : (writeRes v s).fault = s.fault := rfl
@[simp] theorem writeRes_finfo (v : Word) (s : State) : (writeRes v s).finfo = s.finfo := rfl
@[simp] theorem writeRes_diagCnt (v : Word) (s : State) : (writeRes v s).diagCnt = s.diagCnt := rfl
@[simp] theorem writeRes_diagVol (v : Word) (s : State) : (writeRes v s).diagVol = s.diagVol := rfl
@[simp] theorem writeRes_diagSrc (v : Word) (s : State) : (writeRes v s).diagSrc = s.diagSrc := rfl
@[simp] theorem writeRes_mem (v : Word) (s : State) : (writeRes v s).mem = s.mem := rfl
@[simp] theorem writeRes_platform (v : Word) (s : State) : (writeRes v s).platform = s.platform := rfl
@[simp] theorem writeRes_active (v : Word) (s : State) : (writeRes v s).active = s.active := rfl
@[simp] theorem writeRes_sched (v : Word) (s : State) : (writeRes v s).sched = s.sched := rfl
@[simp] theorem writeRes_choices (v : Word) (s : State) : (writeRes v s).choices = s.choices := rfl
@[simp] theorem writeRes_reads (v : Word) (s : State) : (writeRes v s).reads = s.reads := rfl

@[simp] theorem seedGenerator_cfg (s : State) : (seedGenerator s).cfg = s.cfg := State.withGenerator_cfg s _ _
@[simp] theorem seedGenerator_lock (s : State) : (seedGenerator s).lock = s.lock := State.withGenerator_lock s _ _
@[simp] theorem seedGenerator_fault (s : State) : (seedGenerator s).fault = s.fault := State.withGenerator_fault s _ _
@[simp] theorem seedGenerator_finfo (s : State) : (seedGenerator s).finfo = s.finfo := State.withGenerator_finfo s _ _
@[simp] theorem seedGenerator_diagCnt (s : State) : (seedGenerator s).diagCnt = s.diagCnt := State.withGenerator_diagCnt s _ _
@[simp] theorem seedGenerator_diagVol (s : State) : (seedGenerator s).diagVol = s.diagVol := State.withGenerator_diagVol s _ _
@[simp] theorem seedGenerator_diagSrc (s : State) : (seedGenerator s).diagSrc = s.diagSrc := State.withGenerator_diagSrc s _ _
@[simp] theorem seedGenerator_mem (s : State) : (seedGenerator s).mem = s.mem := State.withGenerator_mem s _ _
@[simp] theorem seedGenerator_platform (s : State) : (seedGenerator s).platform = s.platform := State.withGenerator_platform s _ _
@[simp] theorem seedGenerator_active (s : State) : (seedGenerator s).active = s.active := State.withGenerator_active s _ _
@[simp] theorem seedGenerator_sched (s : State) : (seedGenerator s).sched = s.sched := State.withGenerator_sched s _ _
@[simp] theorem seedGenerator_choices (s : State) : (seedGenerator s).choices = s.choices := State.withGenerator_choices s _ _
@[simp] theorem seedGenerator_reads (s : State) : (seedGenerator s).reads = s.reads := State.withGenerator_reads s _ _

@[simp] theorem drawToRes_cfg (s : State) : (drawToRes s).cfg = s.cfg := State.withGenerator_cfg _ _ _
@[simp] theorem drawToRes_seeded (s : State) : (drawToRes s).seeded = s.seeded := State.withGenerator_seeded _ _ _
@[simp] theorem drawToRes_lock (s : State) : (drawToRes s).lock = s.lock := State.withGenerator_lock _ _ _
@[simp] theorem drawToRes_fault (s : State) : (drawToRes s).fault = s.fault := State.withGenerator_fault _ _ _
@[simp] theorem drawToRes_finfo (s : State) : (drawToRes s).finfo = s.finfo := State.withGenerator_finfo _ _ _
@[simp] theorem drawToRes_diagCnt (s : State) : (drawToRes s).diagCnt = s.diagCnt := State.withGenerator_diagCnt _ _ _
@[simp] theorem drawToRes_diagVol (s : State) : (drawToRes s).diagVol = s.diagVol := State.withGenerator_diagVol _ _ _
@[simp] theorem drawToRes_diagSrc (s : State) : (drawToRes s).diagSrc = s.diagSrc := State.withGenerator_diagSrc _ _ _
@[simp] theorem drawToRes_mem (s : State) : (drawToRes s).mem = s.mem := State.withGenerator_mem _ _ _
@[simp] theorem drawToRes_platform (s : State) : (drawToRes s).platform = s.platform := State.withGenerator_platform _ _ _
@[simp] theorem drawToRes_active (s : State) : (drawToRes s).active = s.active := State.withGenerator_active _ _ _
@[simp] theorem drawToRes_sched (s : State) : (drawToRes s).sched = s.sched := State.withGenerator_sched _ _ _
@[simp] theorem drawToRes_choices (s : State) : (drawToRes s).choices = s.choices := State.withGenerator_choices _ _ _
@[simp] theorem drawToRes_reads (s : State) : (drawToRes s).reads = s.reads := State.withGenerator_reads _ _ _

@[simp] theorem synTokens_cfg (s : State) : (synTokens s).cfg = s.cfg := rfl
@[simp] theorem synTokens_dither (s : State) : (synTokens s).dither = s.dither := rfl
@[simp] theorem synTokens_seeded (s : State) : (synTokens s).seeded = s.seeded := rfl
@[simp] theorem synTokens_lock (s : State) : (synTokens s).lock = s.lock := rfl
@[simp] theorem synTokens_fault (s : State) : (synTokens s).fault = s.fault := rfl
@[simp] theorem synTokens_finfo (s : State) : (synTokens s).finfo = s.finfo := rfl
@[simp] theorem synTokens_diagCnt (s : State) : (synTokens s).diagCnt = s.diagCnt := rfl
@[simp] theorem synTokens_diagVol (s : State) : (synTokens s).diagVol = s.diagVol := rfl
@[simp] theorem synTokens_diagSrc (s : State) : (synTokens s).diagSrc = s.diagSrc := rfl
@[simp] theorem synTokens_mem (s : State) : (synTokens s).mem = s.mem := rfl
@[simp] theorem synTokens_platform (s : State) : (synTokens s).platform = s.platform := rfl
@[simp] theorem synTokens_active (s : State) : (synTokens s).active = s.active := rfl
@[simp] theorem synTokens_sched (s : State) : (synTokens s).sched = s.sched := rfl
@[simp] theorem synTokens_choices (s : State) : (synTokens s).choices = s.choices := rfl
@[simp] theorem synTokens_reads (s : State) : (synTokens s).reads = s.reads := rfl

@[simp] theorem writeNextByte_cfg (s : State) : (writeNextByte s).cfg = s.cfg := by
  unfold writeNextByte; split <;> rfl
@[simp] theorem writeNextByte_dither (s : State) : (writeNextByte s).dither = s.dither := by
  unfold writeNextByte; split <;> rfl
@[simp] theorem writeNextByte_seeded (s : State) : (writeNextByte s).seeded = s.seeded := by
  unfold writeNextByte; split <;> rfl
@[simp] theorem writeNextByte_lock (s : State) : (writeNextByte s).lock = s.lock := by
  unfold writeNextByte; split <;> rfl
@[simp] theorem writeNextByte_fault (s : State) : (writeNextByte s).fault = s.fault := by
  unfold writeNextByte; split <;> rfl
@[simp] theorem writeNextByte_finfo (s : State) : (writeNextByte s).finfo = s.finfo := by
  unfold writeNextByte; split <;> rfl
@[simp] theorem writeNextByte_diagCnt (s : State) : (writeNextByte s).diagCnt = s.diagCnt := by
  unfold writeNextByte; split <;> rfl
@[simp] theorem writeNextByte_diagVol (s : State) : (writeNextByte s).diagVol = s.diagVol := by
  unfold writeNextByte; split <;> rfl
@[simp] theorem writeNextByte_diagSrc (s : State) : (writeNextByte s).diagSrc = s.diagSrc := by
  unfold writeNextByte; split <;> rfl
@[simp] theorem writeNextByte_platform (s : State) : (writeNextByte s).platform = s.platform := by
  unfold writeNextByte; split <;> rfl
@[simp] theorem writeNextByte_active (s : State) : (writeNextByte s).active = s.active := by
  unfold writeNextByte; split <;> rfl
@[simp] theorem writeNextByte_sched (s : State) : (writeNextByte s).sched = s.sched := by
  unfold writeNextByte; split <;> rfl
@[simp] theorem writeNextByte_choices (s : State) : (writeNextByte s).choices = s.choices := by
  unfold writeNextByte; split <;> rfl
@[simp] theorem writeNextByte_reads (s : State) : (writeNextByte s).reads = s.reads := by
  unfold writeNextByte; split <;> rfl
@[simp] theorem writeNextByte_halted (s : State) : (writeNextByte s).halted = s.halted := by
  simp [State.halted]

@[simp] theorem diag_ports (k : Curve) (w : Word) (s : State) : (diag k w s).ports = s.ports := rfl
@[simp] theorem diag_diagCnt (k : Curve) (w : Word) (s : State) : (diag k w s).diagCnt = s.diagCnt + 1 := rfl
@[simp] theorem diag_diagVol (k : Curve) (w : Word) (s : State) : (diag k w s).diagVol = w := rfl
@[simp] theorem diag_diagSrc (k : Curve) (w : Word) (s : State) : (diag k w s).diagSrc = diagSourceWord k s.active := rfl
@[simp] theorem completeLocked_lock (s : State) : (completeLocked s).lock = .free := rfl
@[simp] theorem seedGenerator_seeded (s : State) : (seedGenerator s).seeded = true := State.withGenerator_seeded s _ _
@[simp] theorem seedGenerator_dither (s : State) : (seedGenerator s).dither = Dither.init s.me.seed :=
  State.withGenerator_dither s _ _
@[simp] theorem seedGenerator_ports (s : State) : (seedGenerator s).ports = s.ports := State.withGenerator_ports s _ _
@[simp] theorem drawToRes_dither (s : State) : (drawToRes s).dither = s.dither.next := State.withGenerator_dither _ _ _

/-! The updates of a `sample` step. -/

@[simp] theorem beginSample_cfg (s : State) : (beginSample s).cfg = s.cfg := rfl
@[simp] theorem beginSample_dither (s : State) : (beginSample s).dither = s.dither.next := rfl
@[simp] theorem beginSample_seeded (s : State) : (beginSample s).seeded = s.seeded := rfl
@[simp] theorem beginSample_lock (s : State) : (beginSample s).lock = s.lock := rfl
@[simp] theorem beginSample_fault (s : State) : (beginSample s).fault = s.fault := rfl
@[simp] theorem beginSample_finfo (s : State) : (beginSample s).finfo = s.finfo := rfl
@[simp] theorem beginSample_diagCnt (s : State) : (beginSample s).diagCnt = s.diagCnt := rfl
@[simp] theorem beginSample_diagVol (s : State) : (beginSample s).diagVol = s.diagVol := rfl
@[simp] theorem beginSample_diagSrc (s : State) : (beginSample s).diagSrc = s.diagSrc := rfl
@[simp] theorem beginSample_mem (s : State) : (beginSample s).mem = s.mem := rfl
@[simp] theorem beginSample_platform (s : State) : (beginSample s).platform = s.platform := rfl
@[simp] theorem beginSample_active (s : State) : (beginSample s).active = s.active := rfl
@[simp] theorem beginSample_sched (s : State) : (beginSample s).sched = s.sched := rfl
@[simp] theorem beginSample_choices (s : State) : (beginSample s).choices = s.choices := rfl
@[simp] theorem beginSample_reads (s : State) : (beginSample s).reads = s.reads := rfl

@[simp] theorem releaseSample_cfg (s : State) : (releaseSample s).cfg = s.cfg := rfl
@[simp] theorem releaseSample_dither (s : State) : (releaseSample s).dither = s.dither := rfl
@[simp] theorem releaseSample_seeded (s : State) : (releaseSample s).seeded = s.seeded := rfl
@[simp] theorem releaseSample_lock (s : State) : (releaseSample s).lock = .free := rfl
@[simp] theorem releaseSample_fault (s : State) : (releaseSample s).fault = s.fault := rfl
@[simp] theorem releaseSample_finfo (s : State) : (releaseSample s).finfo = s.finfo := rfl
@[simp] theorem releaseSample_diagCnt (s : State) : (releaseSample s).diagCnt = s.diagCnt := rfl
@[simp] theorem releaseSample_diagVol (s : State) : (releaseSample s).diagVol = s.diagVol := rfl
@[simp] theorem releaseSample_diagSrc (s : State) : (releaseSample s).diagSrc = s.diagSrc := rfl
@[simp] theorem releaseSample_mem (s : State) : (releaseSample s).mem = s.mem := rfl
@[simp] theorem releaseSample_platform (s : State) : (releaseSample s).platform = s.platform := rfl
@[simp] theorem releaseSample_active (s : State) : (releaseSample s).active = s.active := rfl
@[simp] theorem releaseSample_sched (s : State) : (releaseSample s).sched = s.sched := rfl
@[simp] theorem releaseSample_choices (s : State) : (releaseSample s).choices = s.choices := rfl
@[simp] theorem releaseSample_reads (s : State) : (releaseSample s).reads = s.reads := rfl

@[simp] theorem endSample_cfg (row : Row) (s : State) : (endSample row s).cfg = s.cfg := by
  unfold endSample; split <;> rfl
@[simp] theorem endSample_dither (row : Row) (s : State) : (endSample row s).dither = s.dither := by
  unfold endSample; split <;> rfl
@[simp] theorem endSample_seeded (row : Row) (s : State) : (endSample row s).seeded = s.seeded := by
  unfold endSample; split <;> rfl
@[simp] theorem endSample_lock (row : Row) (s : State) : (endSample row s).lock = s.lock := by
  unfold endSample; split <;> rfl
@[simp] theorem endSample_fault (row : Row) (s : State) : (endSample row s).fault = s.fault := by
  unfold endSample; split <;> rfl
@[simp] theorem endSample_finfo (row : Row) (s : State) : (endSample row s).finfo = s.finfo := by
  unfold endSample; split <;> rfl
@[simp] theorem endSample_diagCnt (row : Row) (s : State) : (endSample row s).diagCnt = s.diagCnt := by
  unfold endSample; split <;> rfl
@[simp] theorem endSample_diagVol (row : Row) (s : State) : (endSample row s).diagVol = s.diagVol := by
  unfold endSample; split <;> rfl
@[simp] theorem endSample_diagSrc (row : Row) (s : State) : (endSample row s).diagSrc = s.diagSrc := by
  unfold endSample; split <;> rfl
@[simp] theorem endSample_mem (row : Row) (s : State) : (endSample row s).mem = s.mem := by
  unfold endSample; split <;> rfl
@[simp] theorem endSample_platform (row : Row) (s : State) : (endSample row s).platform = s.platform := by
  unfold endSample; split <;> rfl
@[simp] theorem endSample_active (row : Row) (s : State) : (endSample row s).active = s.active := by
  unfold endSample; split <;> rfl
@[simp] theorem endSample_sched (row : Row) (s : State) : (endSample row s).sched = s.sched := by
  unfold endSample; split <;> rfl
@[simp] theorem endSample_choices (row : Row) (s : State) : (endSample row s).choices = s.choices := by
  unfold endSample; split <;> rfl
@[simp] theorem endSample_reads (row : Row) (s : State) : (endSample row s).reads = s.reads := by
  unfold endSample; split <;> rfl

/-! The updates of one port. -/

@[simp] theorem Port.withPhase_buf (q : Port) (ph : Phase) : (q.withPhase ph).buf = q.buf := rfl
@[simp] theorem Port.withPhase_nfr (q : Port) (ph : Phase) : (q.withPhase ph).nfr = q.nfr := rfl
@[simp] theorem Port.withPhase_tok (q : Port) (ph : Phase) : (q.withPhase ph).tok = q.tok := rfl
@[simp] theorem Port.withPhase_seed (q : Port) (ph : Phase) : (q.withPhase ph).seed = q.seed := rfl
@[simp] theorem Port.withPhase_vol (q : Port) (ph : Phase) : (q.withPhase ph).vol = q.vol := rfl
@[simp] theorem Port.withPhase_maxdb (q : Port) (ph : Phase) : (q.withPhase ph).maxdb = q.maxdb := rfl
@[simp] theorem Port.withPhase_mindb (q : Port) (ph : Phase) : (q.withPhase ph).mindb = q.mindb := rfl
@[simp] theorem Port.withPhase_res (q : Port) (ph : Phase) : (q.withPhase ph).res = q.res := rfl
@[simp] theorem Port.withPhase_hs (q : Port) (ph : Phase) : (q.withPhase ph).hs = q.hs := rfl
@[simp] theorem Port.withPhase_cmd (q : Port) (ph : Phase) : (q.withPhase ph).cmd = q.cmd := rfl
@[simp] theorem Port.withPhase_prog (q : Port) (ph : Phase) : (q.withPhase ph).prog = q.prog := rfl
@[simp] theorem Port.withPhase_seq_phase (q : Port) (ph : Phase) :
    (q.withPhase ph).seq.phase = ph := rfl
@[simp] theorem Port.withPhase_seq_cur (q : Port) (ph : Phase) :
    (q.withPhase ph).seq.cur = q.seq.cur := rfl
@[simp] theorem Port.withPhase_seq_sidx (q : Port) (ph : Phase) :
    (q.withPhase ph).seq.sidx = q.seq.sidx := rfl
@[simp] theorem Port.withPhase_seq_prev (q : Port) (ph : Phase) :
    (q.withPhase ph).seq.prev = q.seq.prev := rfl
@[simp] theorem Port.withPhase_seq_op (q : Port) (ph : Phase) :
    (q.withPhase ph).seq.op = q.seq.op := rfl
@[simp] theorem Port.withPhase_seq_out (q : Port) (ph : Phase) :
    (q.withPhase ph).seq.out = q.seq.out := rfl
@[simp] theorem Port.withPhase_seq_sent (q : Port) (ph : Phase) :
    (q.withPhase ph).seq.sent = q.seq.sent := rfl

@[simp] theorem Port.accepting_buf (q : Port) (i : Instr) (ph : Phase) : (Port.accepting i ph q).buf = q.buf := rfl
@[simp] theorem Port.accepting_nfr (q : Port) (i : Instr) (ph : Phase) : (Port.accepting i ph q).nfr = q.nfr := rfl
@[simp] theorem Port.accepting_tok (q : Port) (i : Instr) (ph : Phase) : (Port.accepting i ph q).tok = q.tok := rfl
@[simp] theorem Port.accepting_seed (q : Port) (i : Instr) (ph : Phase) : (Port.accepting i ph q).seed = q.seed := rfl
@[simp] theorem Port.accepting_vol (q : Port) (i : Instr) (ph : Phase) : (Port.accepting i ph q).vol = q.vol := rfl
@[simp] theorem Port.accepting_maxdb (q : Port) (i : Instr) (ph : Phase) : (Port.accepting i ph q).maxdb = q.maxdb := rfl
@[simp] theorem Port.accepting_mindb (q : Port) (i : Instr) (ph : Phase) : (Port.accepting i ph q).mindb = q.mindb := rfl
@[simp] theorem Port.accepting_res (q : Port) (i : Instr) (ph : Phase) : (Port.accepting i ph q).res = q.res := rfl
@[simp] theorem Port.accepting_hs (q : Port) (i : Instr) (ph : Phase) : (Port.accepting i ph q).hs = q.hs := rfl
@[simp] theorem Port.accepting_cmd (q : Port) (i : Instr) (ph : Phase) : (Port.accepting i ph q).cmd = commandValue i := rfl
@[simp] theorem Port.accepting_prog (q : Port) (i : Instr) (ph : Phase) : (Port.accepting i ph q).prog = q.prog := rfl
@[simp] theorem Port.accepting_seq_phase (q : Port) (i : Instr) (ph : Phase) :
    (Port.accepting i ph q).seq.phase = ph := rfl
@[simp] theorem Port.accepting_seq_cur (q : Port) (i : Instr) (ph : Phase) :
    (Port.accepting i ph q).seq.cur = q.seq.cur := rfl
@[simp] theorem Port.accepting_seq_sidx (q : Port) (i : Instr) (ph : Phase) :
    (Port.accepting i ph q).seq.sidx = q.seq.sidx := rfl
@[simp] theorem Port.accepting_seq_prev (q : Port) (i : Instr) (ph : Phase) :
    (Port.accepting i ph q).seq.prev = q.seq.prev := rfl
@[simp] theorem Port.accepting_seq_op (q : Port) (i : Instr) (ph : Phase) :
    (Port.accepting i ph q).seq.op = some i := rfl
@[simp] theorem Port.accepting_seq_out (q : Port) (i : Instr) (ph : Phase) :
    (Port.accepting i ph q).seq.out = q.seq.out := rfl
@[simp] theorem Port.accepting_seq_sent (q : Port) (i : Instr) (ph : Phase) :
    (Port.accepting i ph q).seq.sent = q.seq.sent := rfl

@[simp] theorem Port.completed_buf (q : Port) : (q.completed).buf = q.buf := rfl
@[simp] theorem Port.completed_nfr (q : Port) : (q.completed).nfr = q.nfr := rfl
@[simp] theorem Port.completed_tok (q : Port) : (q.completed).tok = q.tok := rfl
@[simp] theorem Port.completed_seed (q : Port) : (q.completed).seed = q.seed := rfl
@[simp] theorem Port.completed_vol (q : Port) : (q.completed).vol = q.vol := rfl
@[simp] theorem Port.completed_maxdb (q : Port) : (q.completed).maxdb = q.maxdb := rfl
@[simp] theorem Port.completed_mindb (q : Port) : (q.completed).mindb = q.mindb := rfl
@[simp] theorem Port.completed_res (q : Port) : (q.completed).res = q.res := rfl
@[simp] theorem Port.completed_hs (q : Port) : (q.completed).hs = q.hs := rfl
@[simp] theorem Port.completed_cmd (q : Port) : (q.completed).cmd = q.cmd := rfl
@[simp] theorem Port.completed_prog (q : Port) : (q.completed).prog = q.prog := rfl
@[simp] theorem Port.completed_seq_phase (q : Port) :
    (q.completed).seq.phase = .idle := rfl
@[simp] theorem Port.completed_seq_cur (q : Port) :
    (q.completed).seq.cur = q.seq.cur := rfl
@[simp] theorem Port.completed_seq_sidx (q : Port) :
    (q.completed).seq.sidx = q.seq.sidx := rfl
@[simp] theorem Port.completed_seq_prev (q : Port) :
    (q.completed).seq.prev = q.seq.prev := rfl
@[simp] theorem Port.completed_seq_op (q : Port) :
    (q.completed).seq.op = none := rfl
@[simp] theorem Port.completed_seq_out (q : Port) :
    (q.completed).seq.out = q.seq.out := rfl
@[simp] theorem Port.completed_seq_sent (q : Port) :
    (q.completed).seq.sent = q.seq.sent := rfl

@[simp] theorem Port.withOut_buf (q : Port) (out : List (Word × Byte)) : (q.withOut out).buf = q.buf := rfl
@[simp] theorem Port.withOut_nfr (q : Port) (out : List (Word × Byte)) : (q.withOut out).nfr = q.nfr := rfl
@[simp] theorem Port.withOut_tok (q : Port) (out : List (Word × Byte)) : (q.withOut out).tok = q.tok := rfl
@[simp] theorem Port.withOut_seed (q : Port) (out : List (Word × Byte)) : (q.withOut out).seed = q.seed := rfl
@[simp] theorem Port.withOut_vol (q : Port) (out : List (Word × Byte)) : (q.withOut out).vol = q.vol := rfl
@[simp] theorem Port.withOut_maxdb (q : Port) (out : List (Word × Byte)) : (q.withOut out).maxdb = q.maxdb := rfl
@[simp] theorem Port.withOut_mindb (q : Port) (out : List (Word × Byte)) : (q.withOut out).mindb = q.mindb := rfl
@[simp] theorem Port.withOut_res (q : Port) (out : List (Word × Byte)) : (q.withOut out).res = q.res := rfl
@[simp] theorem Port.withOut_hs (q : Port) (out : List (Word × Byte)) : (q.withOut out).hs = q.hs := rfl
@[simp] theorem Port.withOut_cmd (q : Port) (out : List (Word × Byte)) : (q.withOut out).cmd = q.cmd := rfl
@[simp] theorem Port.withOut_prog (q : Port) (out : List (Word × Byte)) : (q.withOut out).prog = q.prog := rfl
@[simp] theorem Port.withOut_seq_phase (q : Port) (out : List (Word × Byte)) :
    (q.withOut out).seq.phase = q.seq.phase := rfl
@[simp] theorem Port.withOut_seq_cur (q : Port) (out : List (Word × Byte)) :
    (q.withOut out).seq.cur = q.seq.cur := rfl
@[simp] theorem Port.withOut_seq_sidx (q : Port) (out : List (Word × Byte)) :
    (q.withOut out).seq.sidx = q.seq.sidx := rfl
@[simp] theorem Port.withOut_seq_prev (q : Port) (out : List (Word × Byte)) :
    (q.withOut out).seq.prev = q.seq.prev := rfl
@[simp] theorem Port.withOut_seq_op (q : Port) (out : List (Word × Byte)) :
    (q.withOut out).seq.op = q.seq.op := rfl
@[simp] theorem Port.withOut_seq_out (q : Port) (out : List (Word × Byte)) :
    (q.withOut out).seq.out = out := rfl
@[simp] theorem Port.withOut_seq_sent (q : Port) (out : List (Word × Byte)) :
    (q.withOut out).seq.sent = q.seq.sent := rfl

@[simp] theorem Port.withSent_buf (q : Port) (sent : Bool) : (q.withSent sent).buf = q.buf := rfl
@[simp] theorem Port.withSent_nfr (q : Port) (sent : Bool) : (q.withSent sent).nfr = q.nfr := rfl
@[simp] theorem Port.withSent_tok (q : Port) (sent : Bool) : (q.withSent sent).tok = q.tok := rfl
@[simp] theorem Port.withSent_seed (q : Port) (sent : Bool) : (q.withSent sent).seed = q.seed := rfl
@[simp] theorem Port.withSent_vol (q : Port) (sent : Bool) : (q.withSent sent).vol = q.vol := rfl
@[simp] theorem Port.withSent_maxdb (q : Port) (sent : Bool) : (q.withSent sent).maxdb = q.maxdb := rfl
@[simp] theorem Port.withSent_mindb (q : Port) (sent : Bool) : (q.withSent sent).mindb = q.mindb := rfl
@[simp] theorem Port.withSent_res (q : Port) (sent : Bool) : (q.withSent sent).res = q.res := rfl
@[simp] theorem Port.withSent_hs (q : Port) (sent : Bool) : (q.withSent sent).hs = q.hs := rfl
@[simp] theorem Port.withSent_cmd (q : Port) (sent : Bool) : (q.withSent sent).cmd = q.cmd := rfl
@[simp] theorem Port.withSent_prog (q : Port) (sent : Bool) : (q.withSent sent).prog = q.prog := rfl
@[simp] theorem Port.withSent_seq_phase (q : Port) (sent : Bool) :
    (q.withSent sent).seq.phase = q.seq.phase := rfl
@[simp] theorem Port.withSent_seq_cur (q : Port) (sent : Bool) :
    (q.withSent sent).seq.cur = q.seq.cur := rfl
@[simp] theorem Port.withSent_seq_sidx (q : Port) (sent : Bool) :
    (q.withSent sent).seq.sidx = q.seq.sidx := rfl
@[simp] theorem Port.withSent_seq_prev (q : Port) (sent : Bool) :
    (q.withSent sent).seq.prev = q.seq.prev := rfl
@[simp] theorem Port.withSent_seq_op (q : Port) (sent : Bool) :
    (q.withSent sent).seq.op = q.seq.op := rfl
@[simp] theorem Port.withSent_seq_out (q : Port) (sent : Bool) :
    (q.withSent sent).seq.out = q.seq.out := rfl
@[simp] theorem Port.withSent_seq_sent (q : Port) (sent : Bool) :
    (q.withSent sent).seq.sent = sent := rfl

@[simp] theorem Port.loadStream_buf (q : Port) : (q.loadStream).buf = q.buf := rfl
@[simp] theorem Port.loadStream_nfr (q : Port) : (q.loadStream).nfr = q.nfr := rfl
@[simp] theorem Port.loadStream_tok (q : Port) : (q.loadStream).tok = q.tok := rfl
@[simp] theorem Port.loadStream_seed (q : Port) : (q.loadStream).seed = q.seed := rfl
@[simp] theorem Port.loadStream_vol (q : Port) : (q.loadStream).vol = q.vol := rfl
@[simp] theorem Port.loadStream_maxdb (q : Port) : (q.loadStream).maxdb = q.maxdb := rfl
@[simp] theorem Port.loadStream_mindb (q : Port) : (q.loadStream).mindb = q.mindb := rfl
@[simp] theorem Port.loadStream_res (q : Port) : (q.loadStream).res = q.res := rfl
@[simp] theorem Port.loadStream_hs (q : Port) : (q.loadStream).hs = q.hs := rfl
@[simp] theorem Port.loadStream_cmd (q : Port) : (q.loadStream).cmd = q.cmd := rfl
@[simp] theorem Port.loadStream_prog (q : Port) : (q.loadStream).prog = q.prog := rfl
@[simp] theorem Port.loadStream_seq_phase (q : Port) :
    (q.loadStream).seq.phase = q.seq.phase := rfl
@[simp] theorem Port.loadStream_seq_cur (q : Port) :
    (q.loadStream).seq.cur = q.buf := rfl
@[simp] theorem Port.loadStream_seq_sidx (q : Port) :
    (q.loadStream).seq.sidx = 0 := rfl
@[simp] theorem Port.loadStream_seq_prev (q : Port) :
    (q.loadStream).seq.prev = q.tok := rfl
@[simp] theorem Port.loadStream_seq_op (q : Port) :
    (q.loadStream).seq.op = q.seq.op := rfl
@[simp] theorem Port.loadStream_seq_out (q : Port) :
    (q.loadStream).seq.out = q.seq.out := rfl
@[simp] theorem Port.loadStream_seq_sent (q : Port) :
    (q.loadStream).seq.sent = q.seq.sent := rfl

@[simp] theorem Port.pastSample_buf (q : Port) (width : Nat) (r : Word) : (q.pastSample width r).buf = q.buf := rfl
@[simp] theorem Port.pastSample_nfr (q : Port) (width : Nat) (r : Word) : (q.pastSample width r).nfr = q.nfr := rfl
@[simp] theorem Port.pastSample_tok (q : Port) (width : Nat) (r : Word) : (q.pastSample width r).tok = q.tok := rfl
@[simp] theorem Port.pastSample_seed (q : Port) (width : Nat) (r : Word) : (q.pastSample width r).seed = q.seed := rfl
@[simp] theorem Port.pastSample_vol (q : Port) (width : Nat) (r : Word) : (q.pastSample width r).vol = q.vol := rfl
@[simp] theorem Port.pastSample_maxdb (q : Port) (width : Nat) (r : Word) : (q.pastSample width r).maxdb = q.maxdb := rfl
@[simp] theorem Port.pastSample_mindb (q : Port) (width : Nat) (r : Word) : (q.pastSample width r).mindb = q.mindb := rfl
@[simp] theorem Port.pastSample_res (q : Port) (width : Nat) (r : Word) : (q.pastSample width r).res = q.res := rfl
@[simp] theorem Port.pastSample_hs (q : Port) (width : Nat) (r : Word) : (q.pastSample width r).hs = q.hs := rfl
@[simp] theorem Port.pastSample_cmd (q : Port) (width : Nat) (r : Word) : (q.pastSample width r).cmd = q.cmd := rfl
@[simp] theorem Port.pastSample_prog (q : Port) (width : Nat) (r : Word) : (q.pastSample width r).prog = q.prog := rfl
@[simp] theorem Port.pastSample_seq_phase (q : Port) (width : Nat) (r : Word) :
    (q.pastSample width r).seq.phase = q.seq.phase := rfl
@[simp] theorem Port.pastSample_seq_cur (q : Port) (width : Nat) (r : Word) :
    (q.pastSample width r).seq.cur = q.seq.cur + BitVec.ofNat 64 width := rfl
@[simp] theorem Port.pastSample_seq_sidx (q : Port) (width : Nat) (r : Word) :
    (q.pastSample width r).seq.sidx = q.seq.sidx + 1 := rfl
@[simp] theorem Port.pastSample_seq_prev (q : Port) (width : Nat) (r : Word) :
    (q.pastSample width r).seq.prev = r := rfl
@[simp] theorem Port.pastSample_seq_op (q : Port) (width : Nat) (r : Word) :
    (q.pastSample width r).seq.op = q.seq.op := rfl
@[simp] theorem Port.pastSample_seq_out (q : Port) (width : Nat) (r : Word) :
    (q.pastSample width r).seq.out = q.seq.out := rfl
@[simp] theorem Port.pastSample_seq_sent (q : Port) (width : Nat) (r : Word) :
    (q.pastSample width r).seq.sent = q.seq.sent := rfl

end Sys2Proof.Machine
end

