-- ==== Sys2Proof/Laws/Ops.lean ====
section
/-! SUPPORT. Laws/Ops.lean: for each shared operation and each agent, one lemma that says everything it can do. -/

namespace Sys2Proof.Machine

/-- A port is between two byte writes exactly where some are left. -/
theorem writing_eq_false {q : Port} : q.writing = false ↔ q.seq.out = [] := by simp [Port.writing]

theorem writing_eq_true {q : Port} : q.writing = true ↔ ∃ a b rest, q.seq.out = (a, b) :: rest := by
  rcases h : q.seq.out with _ | ⟨⟨a, b⟩, rest⟩ <;> simp [Port.writing, h]

/-- A next state under `thenNext` is one from before it, changed. -/
theorem thenNext_eq_next {f : State → State} {o : Outcome State} {t : State} :
    thenNext f o = .next t ↔ ∃ u, o = .next u ∧ t = f u := by
  cases o <;> simp [thenNext, eq_comm]

/-- A command's step is the accept, acquire or run step of its phase, or nothing where the block cannot move. -/
theorem byPhase_cases (s : State) (f g h : State → Outcome State) :
    (s.live = false ∧ byPhase s f g h = .next s) ∨
      (s.live = true ∧ s.me.seq.phase = .idle ∧ byPhase s f g h = f s) ∨
      (s.live = true ∧ s.me.seq.phase = .waitLock ∧ byPhase s f g h = g s) ∨
      (s.live = true ∧ s.me.seq.phase = .run ∧ byPhase s f g h = h s) := by
  unfold byPhase
  cases hl : s.live with
  | false => simp
  | true => cases hp : s.me.seq.phase <;> simp

@[simp] theorem byPhase_idle {s : State} (hl : s.live = true) (hp : s.me.seq.phase = .idle)
    (f g h : State → Outcome State) : byPhase s f g h = f s := by simp [byPhase, hl, hp]

@[simp] theorem byPhase_waitLock {s : State} (hl : s.live = true) (hp : s.me.seq.phase = .waitLock)
    (f g h : State → Outcome State) : byPhase s f g h = g s := by simp [byPhase, hl, hp]

@[simp] theorem byPhase_run {s : State} (hl : s.live = true) (hp : s.me.seq.phase = .run)
    (f g h : State → Outcome State) : byPhase s f g h = h s := by simp [byPhase, hl, hp]

theorem byPhase_dead {s : State} (hl : s.live = false) (f g h : State → Outcome State) : byPhase s f g h = .next s := by
  simp [byPhase, hl]

/-- A fatal fault writes `FAULT` and `FINFO` and nothing else, and only where there is no fault yet. -/
theorem raiseFatal_cases (c : FatalCode) (info : Word) (s : State) :
    (s.halted = true ∧ raiseFatal c info s = s) ∨
      (s.halted = false ∧ raiseFatal c info s = { s with fault := faultWord c s.active, finfo := info }) := by
  unfold raiseFatal; cases s.halted <;> simp

/-- A fault word is never zero: no code of R171 is 0. -/
theorem faultWord_ne_zero (c : FatalCode) (p : Nat) : faultWord c p ≠ 0 := by
  intro h
  have hn := congrArg BitVec.toNat h
  have hc : 1 ≤ c.code ∧ c.code ≤ 5 := by cases c <;> decide
  simp only [faultWord, BitVec.toNat_ofNat] at hn
  rw [Nat.mod_eq_of_lt (by omega)] at hn
  simp at hn
  omega

/-- After a fatal fault the block is halted. -/
theorem raiseFatal_halted (c : FatalCode) (info : Word) (s : State) : (raiseFatal c info s).halted = true := by
  rcases raiseFatal_cases c info s with ⟨h, e⟩ | ⟨_, e⟩
  · rw [e]; exact h
  · rw [e]; simpa [State.halted] using faultWord_ne_zero c s.active

/-- The acquire step: held, faulted or acquired. -/
theorem acquire_cases (i : Instr) (load : Port → Port) (s : State) :
    ((∃ p, s.lock = .held p) ∧ acquire i load s = s) ∨
      (s.lock = .free ∧ s.seeded = false ∧ i ≠ .init ∧
        acquire i load s = raiseFatal .notSeeded (commandValue i) { s with lock := .held s.active }) ∨
      (s.lock = .free ∧ (s.seeded = true ∨ i = .init) ∧
        acquire i load s = { s.setMe ((load s.me).withPhase .run) with lock := .held s.active }) := by
  unfold acquire
  cases hk : s.lock with
  | held p => simp
  | free =>
    cases hs : s.seeded with
    | true => simp
    | false => by_cases hi : i = .init <;> simp [hi]

/-- A host's own store: one byte, or stuck where the platform does not admit the address. -/
theorem hostStore_cases (a : Word) (b : Byte) (s : State) :
    (admitted s.platform a = true ∧ hostStore a b s = .next { s with mem := Memory.writeByte s.mem a.toNat b }) ∨
      (admitted s.platform a = false ∧ hostStore a b s = .fault (.stuck a)) := by
  unfold hostStore
  cases admitted s.platform a <;> simp

/-- What a host's next action is, and what it does. -/
theorem hostAct_cases (p : Nat) (s : State) :
    ((s.port p).prog = [] ∧ hostAct p s = .next s) ∨
      (∃ k v rest, (s.port p).prog = .write k v :: rest ∧ hostAct p s = hostWrite p k v (s.withProg p rest)) ∨
      (∃ k rest, (s.port p).prog = .read k :: rest ∧ hostAct p s =
        .next { s.withProg p rest with reads := { port := p, slot := k, value := regRead s p k } :: s.reads }) ∨
      (∃ rest, (s.port p).prog = .wait :: rest ∧
        hostAct p s = .next (if s.busy p then s else s.withProg p rest)) ∨
      (∃ a b rest, (s.port p).prog = .store a b :: rest ∧ hostAct p s = hostStore a b (s.withProg p rest)) := by
  unfold hostAct
  rcases hp : (s.port p).prog with _ | ⟨a, rest⟩
  · simp
  · cases a with
    | write k v => simp
    | read k => simp
    | wait => cases hb : s.busy p <;> simp
    | store a b => simp

/-- What a host's register write does, in the order of R175. -/
theorem hostWrite_cases (p : Nat) (k : Slot) (v : Word) (s : State) :
    (s.halted = true ∧ hostWrite p k v s = .next (s.actingAs p)) ∨
      (s.halted = false ∧ s.busy p = true ∧
        hostWrite p k v s = .next (raiseFatal .busyViolation (Slot.offset k) (s.actingAs p))) ∨
      (s.halted = false ∧ s.busy p = false ∧ k = 0 ∧ (∃ e, decode v = .error e) ∧
        hostWrite p k v s = .next (raiseFatal .illegalCmd v (s.actingAs p))) ∨
      (∃ i, s.halted = false ∧ s.busy p = false ∧ k = 0 ∧ decode v = .ok i ∧
        hostWrite p k v s = exec i (s.actingAs p)) ∨
      (s.halted = false ∧ s.busy p = false ∧ k ≠ 0 ∧
        hostWrite p k v s = .next ((s.actingAs p).setMe ((s.port p).writeSlot k v))) := by
  have hb : (s.actingAs p).busy p = s.busy p := rfl
  simp only [hostWrite, State.actingAs_halted, hb, State.actingAs_me]
  cases s.halted with
  | true => simp
  | false =>
    cases s.busy p with
    | true => simp
    | false =>
      by_cases hk : k = 0
      · subst hk; rcases hd : decode v with e | i <;> simp
      · have hk' : ¬ k = 0#5 := hk
        simp [hk']

/-- What a sequencer's step is: the next step of the command it runs, or nothing. -/
theorem sequencerAct_cases (p : Nat) (s : State) :
    (sequencerAct p s = .next s ∧ ((s.port p).seq.phase = .idle ∨ (s.port p).seq.op = none)) ∨
      (∃ i, (s.port p).seq.phase ≠ .idle ∧ (s.port p).seq.op = some i ∧
        sequencerAct p s = exec i (s.actingAs p)) := by
  unfold sequencerAct
  cases hp : (s.port p).seq.phase <;> cases ho : (s.port p).seq.op <;> simp

/-- An agent's step is its own move, or nothing where the move would raise a fault between the byte writes of a sample. -/
theorem agentAct_cases (g : Agent) (s : State) :
    (agentAct g s = agentMove g s ∧ (s.midSample = false ∨ raises g s = false)) ∨
      (agentAct g s = .next s ∧ s.midSample = true ∧ raises g s = true) := by
  unfold agentAct faultWaits
  cases s.midSample <;> cases raises g s <;> simp

/-- A move that raises a fault answers a halted state from one that is not. -/
theorem raises_eq_true {g : Agent} {s : State} :
    raises g s = true ↔ s.halted = false ∧ ∃ t, agentMove g s = .next t ∧ t.halted = true := by
  unfold raises
  cases agentMove g s <;> simp

/-- No agent's step halts a block in which some port is between two byte writes of one sample (R176). -/
theorem agentAct_keeps_samples_whole {g : Agent} {s t : State} (h : agentAct g s = .next t)
    (hs : s.halted = false) (ht : t.halted = true) : s.midSample = false := by
  rcases agentAct_cases g s with ⟨e, hm | hr⟩ | ⟨e, -, -⟩
  · exact hm
  · rw [e] at h
    rw [raises_eq_true.mpr ⟨hs, t, h, ht⟩] at hr
    cases hr
  · rw [e] at h
    cases h
    rw [hs] at ht
    cases ht

/-- The machine's step: the scheduled agent, or a free choice among the enabled ones. -/
theorem step_cases (s : State) :
    (∃ g rest, s.sched = g :: rest ∧ step s = agentAct g { s with sched := rest }) ∨
      (s.sched = [] ∧ enabledAgents s = [] ∧ step s = .next s) ∨
      (∃ g ∈ enabledAgents s, ∃ n, s.sched = [] ∧ step s = agentAct g { s with choices := n }) := by
  obtain hs | ⟨g, rest, hs⟩ : s.sched = [] ∨ ∃ g rest, s.sched = g :: rest := by cases s.sched <;> simp
  · have hstep : step s = freeStep s := by simp [step, machineStep, hs]
    rcases he : enabledAgents s with _ | ⟨g, _ | ⟨g', more⟩⟩
    · exact .inr (.inl ⟨hs, rfl, by simp [hstep, freeStep, he]⟩)
    · exact .inr (.inr ⟨g, by simp, s.choices, hs, by simp [hstep, freeStep, he]⟩)
    · have hlt : Config.arbiter s.choices % ((g' :: more).length + 1) < (g :: g' :: more).length :=
        Nat.mod_lt _ (by simp)
      refine .inr (.inr ⟨(g :: g' :: more)[Config.arbiter s.choices % ((g' :: more).length + 1)]'hlt,
        List.getElem_mem hlt, s.choices + 1, hs, ?_⟩)
      simp only [hstep, freeStep, he]
      rw [List.getD_eq_getElem _ _ hlt]
  · exact .inl ⟨g, rest, hs, by simp [step, machineStep, hs]⟩

end Sys2Proof.Machine
end

