-- ==== Sys2Proof/Laws/Exec.lean ====
section
/-! SUPPORT. Laws/Exec.lean: every command is one of six families, what `exec` is on each family, and everything the steps of
a family can do. -/

namespace Sys2Proof

/-- Every command is INIT, DRAW, or the SYN, VC, FMTQ or ENC of a format or a curve (R61). -/
theorem Instr.family_cases (i : Instr) :
    i = .init ∨ i = .draw ∨ (∃ f dth, i = .syn f dth) ∨ (∃ k, i = .vc k) ∨ (∃ f, i = .fmtq f) ∨ ∃ f, i = .enc f := by
  cases i with
  | init => exact .inl rfl
  | draw => exact .inr (.inl rfl)
  | vcFlat => exact .inr (.inr (.inr (.inl ⟨.flat, rfl⟩)))
  | vcTaper => exact .inr (.inr (.inr (.inl ⟨.taper, rfl⟩)))
  | vcSeg => exact .inr (.inr (.inr (.inl ⟨.seg, rfl⟩)))
  | synUnknown d => exact .inr (.inr (.inl ⟨.unknown, d, rfl⟩))
  | synS8 d => exact .inr (.inr (.inl ⟨.s8, d, rfl⟩))
  | synU8 d => exact .inr (.inr (.inl ⟨.u8, d, rfl⟩))
  | synS16 d => exact .inr (.inr (.inl ⟨.s16, d, rfl⟩))
  | synS16Le d => exact .inr (.inr (.inl ⟨.s16Le, d, rfl⟩))
  | synS16Be d => exact .inr (.inr (.inl ⟨.s16Be, d, rfl⟩))
  | synS24 d => exact .inr (.inr (.inl ⟨.s24, d, rfl⟩))
  | synS24Le d => exact .inr (.inr (.inl ⟨.s24Le, d, rfl⟩))
  | synS24Be d => exact .inr (.inr (.inl ⟨.s24Be, d, rfl⟩))
  | synS243Le d => exact .inr (.inr (.inl ⟨.s243Le, d, rfl⟩))
  | synS243Be d => exact .inr (.inr (.inl ⟨.s243Be, d, rfl⟩))
  | synS32 d => exact .inr (.inr (.inl ⟨.s32, d, rfl⟩))
  | synS32Le d => exact .inr (.inr (.inl ⟨.s32Le, d, rfl⟩))
  | synS32Be d => exact .inr (.inr (.inl ⟨.s32Be, d, rfl⟩))
  | synAuto d => exact .inr (.inr (.inl ⟨.auto, d, rfl⟩))
  | synInvalid d => exact .inr (.inr (.inl ⟨.invalid, d, rfl⟩))
  | fmtqUnknown => exact .inr (.inr (.inr (.inr (.inl ⟨.unknown, rfl⟩))))
  | fmtqS8 => exact .inr (.inr (.inr (.inr (.inl ⟨.s8, rfl⟩))))
  | fmtqU8 => exact .inr (.inr (.inr (.inr (.inl ⟨.u8, rfl⟩))))
  | fmtqS16 => exact .inr (.inr (.inr (.inr (.inl ⟨.s16, rfl⟩))))
  | fmtqS16Le => exact .inr (.inr (.inr (.inr (.inl ⟨.s16Le, rfl⟩))))
  | fmtqS16Be => exact .inr (.inr (.inr (.inr (.inl ⟨.s16Be, rfl⟩))))
  | fmtqS24 => exact .inr (.inr (.inr (.inr (.inl ⟨.s24, rfl⟩))))
  | fmtqS24Le => exact .inr (.inr (.inr (.inr (.inl ⟨.s24Le, rfl⟩))))
  | fmtqS24Be => exact .inr (.inr (.inr (.inr (.inl ⟨.s24Be, rfl⟩))))
  | fmtqS243Le => exact .inr (.inr (.inr (.inr (.inl ⟨.s243Le, rfl⟩))))
  | fmtqS243Be => exact .inr (.inr (.inr (.inr (.inl ⟨.s243Be, rfl⟩))))
  | fmtqS32 => exact .inr (.inr (.inr (.inr (.inl ⟨.s32, rfl⟩))))
  | fmtqS32Le => exact .inr (.inr (.inr (.inr (.inl ⟨.s32Le, rfl⟩))))
  | fmtqS32Be => exact .inr (.inr (.inr (.inr (.inl ⟨.s32Be, rfl⟩))))
  | fmtqAuto => exact .inr (.inr (.inr (.inr (.inl ⟨.auto, rfl⟩))))
  | fmtqInvalid => exact .inr (.inr (.inr (.inr (.inl ⟨.invalid, rfl⟩))))
  | encUnknown => exact .inr (.inr (.inr (.inr (.inr ⟨.unknown, rfl⟩))))
  | encS8 => exact .inr (.inr (.inr (.inr (.inr ⟨.s8, rfl⟩))))
  | encU8 => exact .inr (.inr (.inr (.inr (.inr ⟨.u8, rfl⟩))))
  | encS16 => exact .inr (.inr (.inr (.inr (.inr ⟨.s16, rfl⟩))))
  | encS16Le => exact .inr (.inr (.inr (.inr (.inr ⟨.s16Le, rfl⟩))))
  | encS16Be => exact .inr (.inr (.inr (.inr (.inr ⟨.s16Be, rfl⟩))))
  | encS24 => exact .inr (.inr (.inr (.inr (.inr ⟨.s24, rfl⟩))))
  | encS24Le => exact .inr (.inr (.inr (.inr (.inr ⟨.s24Le, rfl⟩))))
  | encS24Be => exact .inr (.inr (.inr (.inr (.inr ⟨.s24Be, rfl⟩))))
  | encS243Le => exact .inr (.inr (.inr (.inr (.inr ⟨.s243Le, rfl⟩))))
  | encS243Be => exact .inr (.inr (.inr (.inr (.inr ⟨.s243Be, rfl⟩))))
  | encS32 => exact .inr (.inr (.inr (.inr (.inr ⟨.s32, rfl⟩))))
  | encS32Le => exact .inr (.inr (.inr (.inr (.inr ⟨.s32Le, rfl⟩))))
  | encS32Be => exact .inr (.inr (.inr (.inr (.inr ⟨.s32Be, rfl⟩))))
  | encAuto => exact .inr (.inr (.inr (.inr (.inr ⟨.auto, rfl⟩))))
  | encInvalid => exact .inr (.inr (.inr (.inr (.inr ⟨.invalid, rfl⟩))))

end Sys2Proof

namespace Sys2Proof.Machine

theorem exec_syn (f : Format) (dth : Bool) (s : State) : exec (.syn f dth) s = synthesize (.syn f dth) f dth s := by
  cases f <;> rfl

theorem exec_vc (k : Curve) (s : State) : exec (.vc k) s = volumeCommand (.vc k) k s := by cases k <;> rfl

theorem exec_fmtq (f : Format) (s : State) : exec (.fmtq f) s = queryFormat (.fmtq f) f s := by cases f <;> rfl

theorem exec_enc (f : Format) (s : State) : exec (.enc f) s = encodeSample (.enc f) f s := by cases f <;> rfl

/-- A sample has as many bytes as its row says (R81, R108). -/
theorem length_pack (cfg : Config.Params) {f : Format} {row : Row} (hd : describe f = some row) (h : Word) :
    (pack cfg row h).length = row.byteWidth := by
  cases f <;> simp [describe] at hd <;> subst hd <;> simp [pack, sampleBytes] <;> split <;> simp

/-- Where the first address that is not admitted comes after `k` admitted ones, it is the one reported. -/
theorem firstNotAdmitted_some (platform : List Region) (addr : Word) (n k : Nat) (hk : k < n)
    (h : ∀ j, j < k → admitted platform (addr + BitVec.ofNat 64 j) = true)
    (h' : admitted platform (addr + BitVec.ofNat 64 k) = false) :
    firstNotAdmitted platform addr n = some (addr + BitVec.ofNat 64 k) := by
  induction n generalizing addr k with
  | zero => omega
  | succ n ih =>
    unfold firstNotAdmitted
    cases k with
    | zero => simp at h' ⊢; simp [h']
    | succ k =>
      have e : ∀ j, addr + BitVec.ofNat 64 (j + 1) = addr + 1 + BitVec.ofNat 64 j := by
        intro j
        rw [BitVec.ofNat_add, BitVec.add_assoc, BitVec.add_comm (1 : Word)]; rfl
      have h0 : admitted platform addr = true := by simpa using h 0 (by omega)
      rw [if_pos h0, e]
      exact ih _ _ (by omega) (fun j hj => by rw [← e]; exact h _ (by omega)) (by rw [← e]; exact h')

/-- The end of a sample moves the stream past it, once no byte write is left (R106). -/
theorem endSample_cases (row : Row) (s : State) :
    (s.me.seq.out = [] ∧ endSample row s = s.setMe (s.me.pastSample row.byteWidth s.dither.d)) ∨
      (s.me.seq.out ≠ [] ∧ endSample row s = s) := by
  unfold endSample
  cases h : s.me.writing with
  | true => exact .inr ⟨fun e => by simp [writing_eq_false.mpr e] at h, rfl⟩
  | false => exact .inl ⟨writing_eq_false.mp h, rfl⟩

/-- The step of a SYN in `RUN`: the next byte of a sample, the release after it, the first byte of the next, the end of the
command, or nothing (R105, R106, R137). -/
theorem synRun_cases (row : Row) (dth : Bool) (s : State) :
    (s.me.seq.out ≠ [] ∧ synRun row dth s = .next (endSample row (writeNextByte s))) ∨
      (s.me.seq.out = [] ∧ s.me.seq.sent = true ∧ synRun row dth s = .next (releaseSample s)) ∨
      (s.me.seq.out = [] ∧ s.me.seq.sent = false ∧ s.me.seq.sidx.toNat < s.me.samples ∧
        synRun row dth s =
          thenNext (endSample row) (memWrite s.me.seq.cur (synBytes row dth s) (beginSample s))) ∨
      (s.me.seq.out = [] ∧ s.me.seq.sent = false ∧ s.me.seq.sidx.toNat = s.me.samples ∧
        synRun row dth s = .next (completeLocked (synTokens s))) ∨
      (s.me.seq.out = [] ∧ s.me.seq.sent = false ∧ s.me.samples < s.me.seq.sidx.toNat ∧ synRun row dth s = .next s) := by
  unfold synRun
  by_cases ho : s.me.seq.out = []
  · rw [writing_eq_false.mpr ho]
    cases hs : s.me.seq.sent with
    | true => simp [ho]
    | false =>
      rcases Nat.lt_trichotomy s.me.seq.sidx.toNat s.me.samples with h | h | h
      · simp [ho, h, Nat.ne_of_lt h]
      · simp [ho, h]
      · simp [ho, h, Nat.not_lt_of_gt h, Nat.ne_of_gt h]
  · have hw : s.me.writing = true := by
      cases hw : s.me.writing with
      | true => rfl
      | false => exact absurd (writing_eq_false.mp hw) ho
    simp [ho, hw]

/-- The accepting step of a SYN with a concrete format: refused, or accepted, with the stream loaded where each sample is
locked (R50, R105, R137). -/
theorem synAccept_cases (i : Instr) (row : Row) (s : State) :
    (s.me.rangeFits row.byteWidth = false ∧
        synAccept i row s = .refused (.bufferWraps s.me.buf s.me.nfr row.byteWidth)) ∨
      (s.me.rangeFits row.byteWidth = true ∧ s.cfg.lockGrain = .call ∧ synAccept i row s = .next (accept i s)) ∨
      (s.me.rangeFits row.byteWidth = true ∧ s.cfg.lockGrain = .sample ∧
        synAccept i row s = .next (accept i (s.setMe s.me.loadStream))) := by
  unfold synAccept
  cases s.me.rangeFits row.byteWidth <;> cases s.cfg.lockGrain <;> simp

/-- The step of a SYN in `WAITLOCK`: the acquire step, or, where each sample is locked and all are made, the end of the
command (R105, R137). -/
theorem synWait_cases (i : Instr) (s : State) :
    (s.cfg.lockGrain = .call ∧ synWait i s = .next (acquire i Port.loadStream s)) ∨
      (s.cfg.lockGrain = .sample ∧ s.me.samplesDone = true ∧ synWait i s = .next (complete (synTokens s))) ∨
      (s.cfg.lockGrain = .sample ∧ s.me.samplesDone = false ∧ synWait i s = .next (acquire i id s)) := by
  unfold synWait
  cases s.cfg.lockGrain <;> cases s.me.samplesDone <;> simp

/-- The run step of ENC: the next byte of its sample, or, once all are performed, the completion, or the first byte
(R134). -/
theorem encRun_cases (row : Row) (s : State) :
    (s.me.seq.out ≠ [] ∧ encRun row s = .next (writeNextByte s)) ∨
      (s.me.seq.out = [] ∧ s.me.seq.sent = true ∧
        encRun row s = .next (complete (s.setMe (s.me.withSent false)))) ∨
      (s.me.seq.out = [] ∧ s.me.seq.sent = false ∧
        encRun row s = memWrite s.me.buf (pack s.cfg row s.me.hs) (s.setMe (s.me.withSent true))) := by
  unfold encRun Port.writing
  cases s.me.seq.out <;> cases s.me.seq.sent <;> simp

/-- The run step of VC: the result, with or without a diagnostic, or the fatal fault (R140, R142, R149). -/
theorem volumeRun_cases (k : Curve) (r : CurveResult) (s : State) :
    (∃ res, r = .value res false ∧ volumeRun k r s = complete (writeRes res s)) ∨
      (∃ res, r = .value res true ∧ volumeRun k r s = complete (diag k s.me.vol (writeRes res s))) ∨
      ∃ i, r = .zeroDenominator i ∧ volumeRun k r s = raiseFatal .segZeroDenom (BitVec.ofNat 64 i) s := by
  rcases r with ⟨res, _ | _⟩ | i
  · exact .inl ⟨res, rfl, rfl⟩
  · exact .inr (.inl ⟨res, rfl, rfl⟩)
  · exact .inr (.inr ⟨i, rfl, rfl⟩)

end Sys2Proof.Machine
end

