-- ==== Sys2Proof/Laws/PerInstr.lean ====
section
/-! SUPPORT. Laws/PerInstr.lean: what holds of each command as syntax: its word is a legal encoding with a zero high half
(R60, R66), it is not the all-zero word, and it is read back as the command's own fields. -/

namespace Sys2Proof.Laws.EncodesLegalWord

/-- A command's fields are legal, its value fits the low half of `CMD`, is not zero, and has the command's fields. -/
def Statement (i : Instr) : Prop :=
  i.fields.wellFormed = true ∧ (commandValue i).toNat < 2 ^ 32 ∧ commandValue i ≠ 0 ∧
    fieldsOf (commandValue i) = i.fields

theorem init : Statement .init := by unfold Statement; decide
theorem draw : Statement .draw := by unfold Statement; decide
theorem synUnknown (dth : Bool) : Statement (.synUnknown dth) := by cases dth <;> (unfold Statement; decide)
theorem synS8 (dth : Bool) : Statement (.synS8 dth) := by cases dth <;> (unfold Statement; decide)
theorem synU8 (dth : Bool) : Statement (.synU8 dth) := by cases dth <;> (unfold Statement; decide)
theorem synS16 (dth : Bool) : Statement (.synS16 dth) := by cases dth <;> (unfold Statement; decide)
theorem synS16Le (dth : Bool) : Statement (.synS16Le dth) := by cases dth <;> (unfold Statement; decide)
theorem synS16Be (dth : Bool) : Statement (.synS16Be dth) := by cases dth <;> (unfold Statement; decide)
theorem synS24 (dth : Bool) : Statement (.synS24 dth) := by cases dth <;> (unfold Statement; decide)
theorem synS24Le (dth : Bool) : Statement (.synS24Le dth) := by cases dth <;> (unfold Statement; decide)
theorem synS24Be (dth : Bool) : Statement (.synS24Be dth) := by cases dth <;> (unfold Statement; decide)
theorem synS243Le (dth : Bool) : Statement (.synS243Le dth) := by cases dth <;> (unfold Statement; decide)
theorem synS243Be (dth : Bool) : Statement (.synS243Be dth) := by cases dth <;> (unfold Statement; decide)
theorem synS32 (dth : Bool) : Statement (.synS32 dth) := by cases dth <;> (unfold Statement; decide)
theorem synS32Le (dth : Bool) : Statement (.synS32Le dth) := by cases dth <;> (unfold Statement; decide)
theorem synS32Be (dth : Bool) : Statement (.synS32Be dth) := by cases dth <;> (unfold Statement; decide)
theorem synAuto (dth : Bool) : Statement (.synAuto dth) := by cases dth <;> (unfold Statement; decide)
theorem synInvalid (dth : Bool) : Statement (.synInvalid dth) := by cases dth <;> (unfold Statement; decide)
theorem vcFlat : Statement .vcFlat := by unfold Statement; decide
theorem vcTaper : Statement .vcTaper := by unfold Statement; decide
theorem vcSeg : Statement .vcSeg := by unfold Statement; decide
theorem fmtqUnknown : Statement .fmtqUnknown := by unfold Statement; decide
theorem fmtqS8 : Statement .fmtqS8 := by unfold Statement; decide
theorem fmtqU8 : Statement .fmtqU8 := by unfold Statement; decide
theorem fmtqS16 : Statement .fmtqS16 := by unfold Statement; decide
theorem fmtqS16Le : Statement .fmtqS16Le := by unfold Statement; decide
theorem fmtqS16Be : Statement .fmtqS16Be := by unfold Statement; decide
theorem fmtqS24 : Statement .fmtqS24 := by unfold Statement; decide
theorem fmtqS24Le : Statement .fmtqS24Le := by unfold Statement; decide
theorem fmtqS24Be : Statement .fmtqS24Be := by unfold Statement; decide
theorem fmtqS243Le : Statement .fmtqS243Le := by unfold Statement; decide
theorem fmtqS243Be : Statement .fmtqS243Be := by unfold Statement; decide
theorem fmtqS32 : Statement .fmtqS32 := by unfold Statement; decide
theorem fmtqS32Le : Statement .fmtqS32Le := by unfold Statement; decide
theorem fmtqS32Be : Statement .fmtqS32Be := by unfold Statement; decide
theorem fmtqAuto : Statement .fmtqAuto := by unfold Statement; decide
theorem fmtqInvalid : Statement .fmtqInvalid := by unfold Statement; decide
theorem encUnknown : Statement .encUnknown := by unfold Statement; decide
theorem encS8 : Statement .encS8 := by unfold Statement; decide
theorem encU8 : Statement .encU8 := by unfold Statement; decide
theorem encS16 : Statement .encS16 := by unfold Statement; decide
theorem encS16Le : Statement .encS16Le := by unfold Statement; decide
theorem encS16Be : Statement .encS16Be := by unfold Statement; decide
theorem encS24 : Statement .encS24 := by unfold Statement; decide
theorem encS24Le : Statement .encS24Le := by unfold Statement; decide
theorem encS24Be : Statement .encS24Be := by unfold Statement; decide
theorem encS243Le : Statement .encS243Le := by unfold Statement; decide
theorem encS243Be : Statement .encS243Be := by unfold Statement; decide
theorem encS32 : Statement .encS32 := by unfold Statement; decide
theorem encS32Le : Statement .encS32Le := by unfold Statement; decide
theorem encS32Be : Statement .encS32Be := by unfold Statement; decide
theorem encAuto : Statement .encAuto := by unfold Statement; decide
theorem encInvalid : Statement .encInvalid := by unfold Statement; decide

end Sys2Proof.Laws.EncodesLegalWord
end

