-- ==== Sys2Proof/Tests/Slice0.lean ====
section
/-! SUPPORT. Tests/Slice0.lean: the smoke test of WellFormed, the words of every command written out, one step of each
command against the vectors of spec/95_test_vectors.md, and for each obligation with hypotheses a state and operands that
meet them. -/

namespace Sys2Proof.Tests

open Sys2Proof Sys2Proof.Machine

/-! ## Helpers -/

/-- DitherState after `init(1)` (V-PRNG-3). -/
def seedOne : Dither :=
  { a := 0xA6B9965142A67983, b := 0x3701B73D0058B2EA, c := 0xB055FCA69F97B70D, d := 0xB2C51E6E6A46B6B8 }

/-- DitherState after `init(42)` (V-PRNG-6). -/
def seed42 : Dither :=
  { a := 0x4FCAAD709AC3BEA4, b := 0x44A38E761B692B5D, c := 0x7B6F1E6D182035C6, d := 0x2CEC76739FD17EC5 }

/-- A port with operands set, two frames to make at 0x1000, in a given phase of a given command. -/
def portIn (ph : Phase) (op : Option Instr) : Port :=
  { Port.reset with
    buf := 0x1000, nfr := 2, tok := 0xFFFFFFFFFFFFFFFF, seed := 1, vol := 0xC02E000000000000, mindb := 0xFFFFE890,
    hs := 0x0123456789ABCDEF, cmd := (op.map commandValue).getD 0,
    seq := { Seq.reset with phase := ph, cur := 0x1000, prev := 0xFFFFFFFFFFFFFFFF, op := op } }

/-- A seeded block of two ports with a given port 0. -/
def withPort (q : Port) : State := { State.reset with seeded := true, dither := seedOne, ports := [q, Port.reset] }

def idleState : State := withPort (portIn .idle none)
def waiting (i : Instr) : State := withPort (portIn .waitLock (some i))
def running (i : Instr) : State := withPort (portIn .run (some i))

/-- A port that runs a command under the lock it holds. -/
def lockedRun (i : Instr) : State := { running i with lock := .held 0 }

/-- The state an outcome gives, or the reset state where the step stops. -/
def after : Outcome State → State
  | .next s => s
  | _ => State.reset

/-- A command of a format whose samples have `n` bytes, run for one sample by its own port alone. -/
def oneSample (i : Instr) (n : Nat) (s : State) : State := after (execTimes i n s)

/-- The same block with `LOCK_GRAIN = SAMPLE`. -/
def sampleGrain (s : State) : State := { s with cfg := { s.cfg with lockGrain := .sample } }

/-- The same block on a platform that backs `size` bytes from 0x1000 on. -/
def onPlatform (size : Nat) (s : State) : State := { s with platform := [{ base := 0x1000, size := size }] }

/-! ## WellFormed: each check refuses a term that breaks it alone -/

/-- The fields of `SYN.S8.D`. -/
def good : CommandFields := { high := 0, opc := 3, sub := 1, dth := true, z := 0 }

theorem test_wellFormed_good : good.wellFormed = true := by decide

theorem test_wellFormed_high : ({ good with high := 1 } : CommandFields).highHalfZero = false ∧
    ({ good with high := 1 } : CommandFields).wellFormed = false := by decide

theorem test_wellFormed_reserved : ({ good with z := 1 } : CommandFields).reservedBitsZero = false ∧
    ({ good with z := 1 } : CommandFields).wellFormed = false := by decide

theorem test_wellFormed_opcode : ({ good with opc := 7, dth := false } : CommandFields).opcodeAssigned = false ∧
    ({ good with opc := 7, dth := false } : CommandFields).wellFormed = false := by decide

theorem test_wellFormed_dither : ({ good with opc := 6 } : CommandFields).ditherFlagInPlace = false ∧
    ({ good with opc := 6 } : CommandFields).wellFormed = false := by decide

theorem test_wellFormed_sub : ({ good with opc := 1, dth := false } : CommandFields).subZeroWhereUnused = false ∧
    ({ good with opc := 1, dth := false } : CommandFields).wellFormed = false := by decide

theorem test_wellFormed_curve : ({ good with opc := 4, sub := 3, dth := false } : CommandFields).curveAssigned = false ∧
    ({ good with opc := 4, sub := 3, dth := false } : CommandFields).wellFormed = false := by decide

/-! ## Decode: every command from its word, written out from R61 to R68 and the rule of its row -/

/-- R96, R97. -/
theorem test_decode_generator :
    ([(0x10000000, .init), (0x20000000, .draw)] : List (Nat × Instr)).all
      (fun r => decodeTableWord 32 r.1 == some r.2) = true := by decide

/-- R143, R144, R147. -/
theorem test_decode_volume :
    ([(0x40000000, .vcFlat), (0x41000000, .vcTaper), (0x42000000, .vcSeg)] : List (Nat × Instr)).all
      (fun r => decodeTableWord 32 r.1 == some r.2) = true := by decide

/-- R109 to R124, without dither. -/
theorem test_decode_syn :
    ([(0x30000000, .synUnknown false), (0x31000000, .synS8 false), (0x32000000, .synU8 false),
      (0x33000000, .synS16 false), (0x34000000, .synS16Le false), (0x35000000, .synS16Be false),
      (0x36000000, .synS24 false), (0x37000000, .synS24Le false), (0x38000000, .synS24Be false),
      (0x39000000, .synS243Le false), (0x3A000000, .synS243Be false), (0x3B000000, .synS32 false),
      (0x3C000000, .synS32Le false), (0x3D000000, .synS32Be false), (0x3E000000, .synAuto false),
      (0x3F000000, .synInvalid false)] : List (Nat × Instr)).all
      (fun r => decodeTableWord 32 r.1 == some r.2) = true := by decide

/-- R109 to R124, with dither. -/
theorem test_decode_syn_dither :
    ([(0x30800000, .synUnknown true), (0x31800000, .synS8 true), (0x32800000, .synU8 true),
      (0x33800000, .synS16 true), (0x34800000, .synS16Le true), (0x35800000, .synS16Be true),
      (0x36800000, .synS24 true), (0x37800000, .synS24Le true), (0x38800000, .synS24Be true),
      (0x39800000, .synS243Le true), (0x3A800000, .synS243Be true), (0x3B800000, .synS32 true),
      (0x3C800000, .synS32Le true), (0x3D800000, .synS32Be true), (0x3E800000, .synAuto true),
      (0x3F800000, .synInvalid true)] : List (Nat × Instr)).all
      (fun r => decodeTableWord 32 r.1 == some r.2) = true := by decide

/-- R83. -/
theorem test_decode_fmtq :
    ([(0x50000000, .fmtqUnknown), (0x51000000, .fmtqS8), (0x52000000, .fmtqU8),
      (0x53000000, .fmtqS16), (0x54000000, .fmtqS16Le), (0x55000000, .fmtqS16Be),
      (0x56000000, .fmtqS24), (0x57000000, .fmtqS24Le), (0x58000000, .fmtqS24Be),
      (0x59000000, .fmtqS243Le), (0x5A000000, .fmtqS243Be), (0x5B000000, .fmtqS32),
      (0x5C000000, .fmtqS32Le), (0x5D000000, .fmtqS32Be), (0x5E000000, .fmtqAuto),
      (0x5F000000, .fmtqInvalid)] : List (Nat × Instr)).all
      (fun r => decodeTableWord 32 r.1 == some r.2) = true := by decide

/-- R109 to R124, R134. -/
theorem test_decode_enc :
    ([(0x60000000, .encUnknown), (0x61000000, .encS8), (0x62000000, .encU8),
      (0x63000000, .encS16), (0x64000000, .encS16Le), (0x65000000, .encS16Be),
      (0x66000000, .encS24), (0x67000000, .encS24Le), (0x68000000, .encS24Be),
      (0x69000000, .encS243Le), (0x6A000000, .encS243Be), (0x6B000000, .encS32),
      (0x6C000000, .encS32Le), (0x6D000000, .encS32Be), (0x6E000000, .encAuto),
      (0x6F000000, .encInvalid)] : List (Nat × Instr)).all
      (fun r => decodeTableWord 32 r.1 == some r.2) = true := by decide

/-- V-IF-1, V-VC-26, V-ENC-8: one word for each condition of R66. -/
theorem test_decode_illegal :
    decode 0x0000000110000000 = .error .highHalfSet ∧ decode 0x10000001 = .error .reservedBitsSet ∧
      decode 0x00000000 = .error .noSuchOpcode ∧ decode 0x70000000 = .error .noSuchOpcode ∧
      decode 0x20800000 = .error .ditherFlagMisplaced ∧ decode 0x64800000 = .error .ditherFlagMisplaced ∧
      decode 0x11000000 = .error .subNotZero ∧ decode 0x43000000 = .error .noSuchCurve := by
  decide

/-- The word is placed where the next step takes it: `FMTQ.S24_3BE` is accepted from reset. -/
theorem test_withFetchWord : ((after (step (State.reset.withFetchWord 32 0x5A000000))).port 0).cmd = 0x5A000000 := by
  decide

/-! ## The generator (V-PRNG-1, V-PRNG-3, V-PRNG-9) -/

theorem test_draw_by_hand : Dither.next { a := 1, b := 2, c := 3, d := 4 } =
    { a := 0x6002, b := 0x0000008000000003, c := 0xFFFFFFFFFFFFFF05, d := 0x5F03 } := by decide

theorem test_init : (after (exec .init (lockedRun .init))).dither = seedOne := by decide

theorem test_init_releases : (after (exec .init (lockedRun .init))).lock = .free := by decide

theorem test_draw : (after (exec .draw (lockedRun .draw))).me.res = 0xAE735CA10D060948 := by decide

theorem test_draw_unseeded :
    (after (exec .draw { waiting .draw with seeded := false })).fault = 0x0005 ∧
      (after (exec .draw { waiting .draw with seeded := false })).finfo = 0x20000000 := by decide

/-! ## SYN: one sample of -1, the previous draw being all ones (R107); the sentinels (V-SYN-16) -/

theorem test_syn_unknown : (after (exec (.synUnknown true) idleState)).fault = 0x0001 ∧
    (after (exec (.synUnknown true) idleState)).finfo = 0 := by decide

theorem test_syn_s8 : (oneSample (.synS8 true) 1 (lockedRun (.synS8 true))).mem =
    [(0x1000, 0xFF)] := by decide

theorem test_syn_u8 : (oneSample (.synU8 true) 1 (lockedRun (.synU8 true))).mem =
    [(0x1000, 0x7F)] := by decide

theorem test_syn_s16 : (oneSample (.synS16 true) 2 (lockedRun (.synS16 true))).mem =
    [(0x1000, 0xFF), (0x1001, 0xFF)] := by decide

theorem test_syn_s16_le : (oneSample (.synS16Le true) 2 (lockedRun (.synS16Le true))).mem =
    [(0x1000, 0xFF), (0x1001, 0xFF)] := by decide

theorem test_syn_s16_be : (oneSample (.synS16Be true) 2 (lockedRun (.synS16Be true))).mem =
    [(0x1000, 0xFF), (0x1001, 0xFF)] := by decide

theorem test_syn_s24 : (oneSample (.synS24 true) 4 (lockedRun (.synS24 true))).mem =
    [(0x1000, 0xFF), (0x1001, 0xFF), (0x1002, 0xFF), (0x1003, 0x00)] := by decide

theorem test_syn_s24_le : (oneSample (.synS24Le true) 4 (lockedRun (.synS24Le true))).mem =
    [(0x1000, 0xFF), (0x1001, 0xFF), (0x1002, 0xFF), (0x1003, 0x00)] := by decide

theorem test_syn_s24_be : (oneSample (.synS24Be true) 4 (lockedRun (.synS24Be true))).mem =
    [(0x1000, 0x00), (0x1001, 0xFF), (0x1002, 0xFF), (0x1003, 0xFF)] := by decide

theorem test_syn_s24_3le : (oneSample (.synS243Le true) 3 (lockedRun (.synS243Le true))).mem =
    [(0x1000, 0xFF), (0x1001, 0xFF), (0x1002, 0xFF)] := by decide

theorem test_syn_s24_3be : (oneSample (.synS243Be true) 3 (lockedRun (.synS243Be true))).mem =
    [(0x1000, 0xFF), (0x1001, 0xFF), (0x1002, 0xFF)] := by decide

theorem test_syn_s32 : (oneSample (.synS32 true) 4 (lockedRun (.synS32 true))).mem =
    [(0x1000, 0xFF), (0x1001, 0xFF), (0x1002, 0xFF), (0x1003, 0xFF)] := by decide

theorem test_syn_s32_le : (oneSample (.synS32Le true) 4 (lockedRun (.synS32Le true))).mem =
    [(0x1000, 0xFF), (0x1001, 0xFF), (0x1002, 0xFF), (0x1003, 0xFF)] := by decide

theorem test_syn_s32_be : (oneSample (.synS32Be true) 4 (lockedRun (.synS32Be true))).mem =
    [(0x1000, 0xFF), (0x1001, 0xFF), (0x1002, 0xFF), (0x1003, 0xFF)] := by decide

theorem test_syn_auto : (after (exec (.synAuto true) idleState)).fault = 0x0001 ∧
    (after (exec (.synAuto true) idleState)).finfo = 14 := by decide

theorem test_syn_invalid : (after (exec (.synInvalid true) idleState)).fault = 0x0001 ∧
    (after (exec (.synInvalid true) idleState)).finfo = 15 := by decide

/-! ## ENC: V-ENC-1, and the sentinels (V-ENC-9) -/

theorem test_enc_unknown : (after (exec .encUnknown idleState)).fault = 0x0001 ∧
    (after (exec .encUnknown idleState)).finfo = 0 := by decide

theorem test_enc_s8 : (oneSample .encS8 1 (running .encS8)).mem =
    [(0x1000, 0x01)] := by decide

theorem test_enc_u8 : (oneSample .encU8 1 (running .encU8)).mem =
    [(0x1000, 0x81)] := by decide

theorem test_enc_s16 : (oneSample .encS16 2 (running .encS16)).mem =
    [(0x1000, 0x23), (0x1001, 0x01)] := by decide

theorem test_enc_s16_le : (oneSample .encS16Le 2 (running .encS16Le)).mem =
    [(0x1000, 0x23), (0x1001, 0x01)] := by decide

theorem test_enc_s16_be : (oneSample .encS16Be 2 (running .encS16Be)).mem =
    [(0x1000, 0x01), (0x1001, 0x23)] := by decide

theorem test_enc_s24 : (oneSample .encS24 4 (running .encS24)).mem =
    [(0x1000, 0x45), (0x1001, 0x23), (0x1002, 0x01), (0x1003, 0x00)] := by decide

theorem test_enc_s24_le : (oneSample .encS24Le 4 (running .encS24Le)).mem =
    [(0x1000, 0x45), (0x1001, 0x23), (0x1002, 0x01), (0x1003, 0x00)] := by decide

theorem test_enc_s24_be : (oneSample .encS24Be 4 (running .encS24Be)).mem =
    [(0x1000, 0x00), (0x1001, 0x01), (0x1002, 0x23), (0x1003, 0x45)] := by decide

theorem test_enc_s24_3le : (oneSample .encS243Le 3 (running .encS243Le)).mem =
    [(0x1000, 0x45), (0x1001, 0x23), (0x1002, 0x01)] := by decide

theorem test_enc_s24_3be : (oneSample .encS243Be 3 (running .encS243Be)).mem =
    [(0x1000, 0x01), (0x1001, 0x23), (0x1002, 0x45)] := by decide

theorem test_enc_s32 : (oneSample .encS32 4 (running .encS32)).mem =
    [(0x1000, 0x67), (0x1001, 0x45), (0x1002, 0x23), (0x1003, 0x01)] := by decide

theorem test_enc_s32_le : (oneSample .encS32Le 4 (running .encS32Le)).mem =
    [(0x1000, 0x67), (0x1001, 0x45), (0x1002, 0x23), (0x1003, 0x01)] := by decide

theorem test_enc_s32_be : (oneSample .encS32Be 4 (running .encS32Be)).mem =
    [(0x1000, 0x01), (0x1001, 0x23), (0x1002, 0x45), (0x1003, 0x67)] := by decide

theorem test_enc_auto : (after (exec .encAuto idleState)).fault = 0x0001 ∧
    (after (exec .encAuto idleState)).finfo = 14 := by decide

theorem test_enc_invalid : (after (exec .encInvalid idleState)).fault = 0x0001 ∧
    (after (exec .encInvalid idleState)).finfo = 15 := by decide

/-- V-ENC-4 under `PAD24 = SIGN`. -/
theorem test_pack_sign_padding : (describe .s24Be).map
    (fun row => pack { Config.hardware with pad24 := .sign } row 0xFEDCBA9876543210) =
      some [0xFF, 0xFE, 0xDC, 0xBA] := by decide

/-! ## A sample is written byte by byte (R46, R57) -/

/-- R46: after the first part of its run step an ENC is busy, with half its sample in memory. -/
theorem test_half_sample :
    let s := after (exec .encS16Le (running .encS16Le))
    s.mem = [(0x1000, 0x23)] ∧ s.busy 0 = true ∧ s.midSample = true := by decide

/-- R57: port 1 runs `ENC.S16_BE` at the buffer where port 0 runs `ENC.S16_LE`. -/
def overlapping : State :=
  { State.reset with ports := [portIn .run (some .encS16Le), portIn .run (some .encS16Be)] }

/-- R57: two of the schedules, by the order in which the sequencers move: a mix of the two samples, and one whole sample. -/
theorem test_overlapping_enc :
    let run (l : List Nat) := l.foldl (fun s p => after (agentAct (.sequencer p) s)) overlapping
    (run [0, 1, 1, 0]).mem = [(0x1000, 0x01), (0x1001, 0x01)] ∧
      (run [0, 0, 1, 1]).mem = [(0x1000, 0x01), (0x1001, 0x23)] ∧ ¬ (overlapping.port 0).owns 0x1002 ∧
      (overlapping.port 0).owns 0x1001 ∧ (overlapping.port 1).owns 0x1001 := by decide

/-- Port 0 has written half a sample, and the host of port 1 is about to write a value that is no command. -/
def faultBesideEnc : State :=
  let s := after (exec .encS16Le (running .encS16Le))
  { s with ports := [s.port 0, { Port.reset with prog := [.write 0 0x70000000] }] }

/-- R173, R176: the fault waits for the end of the sample, and then halts the block with whole samples in memory. -/
theorem test_fault_between_samples :
    agentAct (.host 1) faultBesideEnc = .next faultBesideEnc ∧
      let s := after (agentAct (.sequencer 0) faultBesideEnc)
      let t := after (agentAct (.host 1) s)
      t.fault = 0x0103 ∧ t.mem = [(0x1000, 0x23), (0x1001, 0x01)] ∧ t.busy 0 = true ∧
        agentAct (.sequencer 0) t = .next (t.actingAs 0) :=
  ⟨rfl, by decide, by decide, by decide, rfl⟩

/-! ## FMTQ (V-FMT-1 to V-FMT-3) -/

theorem test_fmtq_unknown : (after (exec .fmtqUnknown (running .fmtqUnknown))).me.res = 0 := by decide

theorem test_fmtq_s8 : (after (exec .fmtqS8 (running .fmtqS8))).me.res = 0x84380108 := by decide

theorem test_fmtq_u8 : (after (exec .fmtqU8 (running .fmtqU8))).me.res = 0x80380108 := by decide

theorem test_fmtq_s16 : (after (exec .fmtqS16 (running .fmtqS16))).me.res = 0x87300210 := by decide

theorem test_fmtq_s16_le : (after (exec .fmtqS16Le (running .fmtqS16Le))).me.res = 0x85300210 := by decide

theorem test_fmtq_s16_be : (after (exec .fmtqS16Be (running .fmtqS16Be))).me.res = 0x8E300210 := by decide

theorem test_fmtq_s24 : (after (exec .fmtqS24 (running .fmtqS24))).me.res = 0x87280418 := by decide

theorem test_fmtq_s24_le : (after (exec .fmtqS24Le (running .fmtqS24Le))).me.res = 0x85280418 := by decide

theorem test_fmtq_s24_be : (after (exec .fmtqS24Be (running .fmtqS24Be))).me.res = 0x8E280418 := by decide

theorem test_fmtq_s24_3le : (after (exec .fmtqS243Le (running .fmtqS243Le))).me.res = 0x85280318 := by decide

theorem test_fmtq_s24_3be : (after (exec .fmtqS243Be (running .fmtqS243Be))).me.res = 0x8E280318 := by decide

theorem test_fmtq_s32 : (after (exec .fmtqS32 (running .fmtqS32))).me.res = 0x87200420 := by decide

theorem test_fmtq_s32_le : (after (exec .fmtqS32Le (running .fmtqS32Le))).me.res = 0x85200420 := by decide

theorem test_fmtq_s32_be : (after (exec .fmtqS32Be (running .fmtqS32Be))).me.res = 0x8E200420 := by decide

theorem test_fmtq_auto : (after (exec .fmtqAuto (running .fmtqAuto))).me.res = 0 := by decide

theorem test_fmtq_invalid : (after (exec .fmtqInvalid (running .fmtqInvalid))).me.res = 0 := by decide

theorem test_fmtq_big_endian_native : describeWord .be .s16 = 0x8F300210 ∧ describeWord .be .s24 = 0x8F280418 ∧
    describeWord .be .s32 = 0x8F200420 := by decide

/-! ## The volume curves (V-VC-3, V-VC-9, V-VC-14, V-VC-17, V-VC-20) -/

theorem test_vc_flat : (after (exec .vcFlat (running .vcFlat))).me.res = 0xC0A7700000000000 := by decide

theorem test_vc_flat_rounds : flat 0xC024000000000000 400 (-4800) = .value 0xC094D55555555556 false := by decide

theorem test_vc_taper : (after (exec .vcTaper (running .vcTaper))).me.res = 0xC08F400000000000 := by decide +kernel

theorem test_vc_taper_dead_zone : tapered 0xC02E000000000000 0 (-1500) = .value 0xC087700000000000 false := by
  decide +kernel

theorem test_vc_seg : (after (exec .vcSeg (running .vcSeg))).me.res = 0xC09C200000000000 := by decide

theorem test_vc_seg_odd_range : segmented 0xC02E000000000000 0 (-6001) = .value 0xC09C213333333333 false := by decide

/-- V-VC-25: a diagnostic of VC.TAPER on port 1. -/
theorem test_vc_diagnostic :
    let s := { State.reset with
      active := 1, ports := [Port.reset, { portIn .run (some .vcTaper) with vol := 0xC03F000000000000 }] }
    (after (exec .vcTaper s)).diagSrc = 0x0101 ∧ (after (exec .vcTaper s)).diagCnt = 1 ∧
      (after (exec .vcTaper s)).diagVol = 0xC03F000000000000 := by decide

/-- V-VC-14, VC.TAPER: the three results admitted for `LOG2(pct)`, next to the real logarithm. -/
theorem test_log2_candidates : F64.log2Candidates (F64.negLog2Floor 0x15555555555556 (-53)) =
    { nearer := 0xBFE2B803473F7ACF, farther := 0xBFE2B803473F7AD0, belowPower := none } := by decide +kernel

/-! ## The interface (V-IF-2, V-IF-4) -/

theorem test_busy_violation : (after (hostWrite 0 3 7 (running .vcFlat))).fault = 0x0004 ∧
    (after (hostWrite 0 3 7 (running .vcFlat))).finfo = 0x18 := by decide

theorem test_mindb_reads_sign_extended :
    regRead (after (hostWrite 0 8 0x12345678FFFFE890 idleState)) 0 8 = 0xFFFFFFFFFFFFE890 := by decide

theorem test_nfr_reads_zero_extended : regRead (after (hostWrite 0 3 0xFFFFFFFF00000002 idleState)) 0 3 = 2 := by decide

/-! ## Witnesses: for each obligation with hypotheses, what meets them together -/

theorem witness_IllegalValuesAreThoseOfR66 :
    decode 0x10000000 = .ok .init ∧ idleState.halted = false ∧
      idleState.busy 0 = false ∧ decode 0x10000001 = .error .reservedBitsSet := by decide

/-- Port 0's host is about to issue `INIT`. -/
def issuing : State :=
  { withPort { portIn .idle none with prog := [.write 0 0x10000000, .wait] } with sched := [.host 0] }

/-- Port 0 runs an `FMTQ` and moves next. -/
def querying : State := { running .fmtqS8 with sched := [.sequencer 0] }

/-- Port 0 has written half of an `ENC.S16_LE`, and port 1 waits for the lock before the first INIT. -/
def unseededBesideEnc : State :=
  let s := after (exec .encS16Le (running .encS16Le))
  { s with ports := [s.port 0, portIn .waitLock (some .draw)], seeded := false, sched := [.sequencer 1] }

theorem witness_StepRunsTheScheduledAgent : (issuing.halted = false ∧ issuing.busy 0 = false ∧
      issuing.sched = .host 0 :: [] ∧ (issuing.port 0).prog = .write 0 0x10000000 :: [.wait] ∧
      decode 0x10000000 = .ok .init ∧ issuing.midSample = false ∧ Instr.encAuto.isRejected = true) ∧
    (querying.busy 0 = true ∧ querying.sched = .sequencer 0 :: [] ∧ (querying.port 0).seq.op = some .fmtqS8) ∧
    (unseededBesideEnc.midSample = true ∧ unseededBesideEnc.halted = false ∧ unseededBesideEnc.busy 1 = true ∧
      (after (exec .draw { unseededBesideEnc with sched := [], active := 1 })).halted = true) := by decide

/-- A port whose two frames of `S16_LE` end exactly at `2^64`. -/
def lastRange : State := withPort { portIn .idle none with buf := 0xFFFFFFFFFFFFFFF8 }

theorem witness_AcceptIssuesTheCommand : idleState.Idle ∧ lastRange.Idle ∧ lastRange.cfg.lockGrain = .call ∧
    (describe .s16Le).map Row.byteWidth = some 2 ∧ lastRange.me.rangeFits 2 = true ∧ isValid .s32Be = true := by decide

theorem witness_AcquireTakesTheFreeLock : (waiting .draw).Waiting ∧ (waiting .draw).lock = .free ∧
    (waiting .draw).seeded = true ∧ isValid .s8 = true ∧ (waiting (.synS8 true)).Waiting ∧
    (waiting (.synS8 true)).cfg.lockGrain = .call := by decide

/-- A port that waits to run a SYN while port 1 holds the lock. -/
def held : State := { waiting (.synS8 true) with lock := .held 1 }

theorem witness_HeldPortWaits : held.Waiting ∧ held.lock = .held 1 ∧ held.cfg.lockGrain = .call ∧
    (sampleGrain held).Waiting ∧ (sampleGrain held).lock = .held 1 ∧ (sampleGrain held).me.seq.sidx = 0 := by decide

/-- A block before its first INIT whose port 0 waits to run a SYN. -/
def unseeded : State := { waiting (.synS8 true) with seeded := false }

theorem witness_UnseededAcquireFaults : unseeded.Waiting ∧ unseeded.lock = .free ∧ unseeded.seeded = false ∧
    (Instr.synS8 true).isSyn = true ∧ (Instr.synS8 true).isRejected = false ∧ unseeded.cfg.lockGrain = .call ∧
    (sampleGrain unseeded).Waiting ∧ (sampleGrain unseeded).me.seq.sidx = 0 := by decide

theorem witness_RotateMovesEveryBit : rotate 0x8000000000000001 7 = 0x00000000000000C0 ∧
    rotate 0xFFFFFFFFFFFFFFFF 13 = 0xFFFFFFFFFFFFFFFF ∧ rotate 1 37 = 0x0000002000000000 ∧
    (rotate 0x8000000000000000 37).getLsbD ((63 + 37) % 64) = true := by decide

theorem witness_DrawIsInjective : seedOne.next = seedOne.next ∧ seedOne.next ≠ seed42.next := by decide

theorem witness_InitRunStepSeeds : (lockedRun .init).Running := by decide

theorem witness_ReseedReplacesTheGenerator : idleState.Idle ∧ idleState.lock = .free ∧ idleState.seeded = true := by
  decide

theorem witness_DrawRunStepWritesRes : (lockedRun .draw).Running := by decide

/-- A `SYN.S16_LE` that has written one byte of its first sample. -/
def synHalf : State := after (exec (.synS16Le true) (lockedRun (.synS16Le true)))

theorem witness_SampleStepWritesOneSample : (describe .s16Le).isSome = true ∧ (lockedRun (.synS16Le true)).BetweenSamples ∧
    synHalf.MidSample 0x1001 0xFF [] ∧
    (lockedRun (.synS16Le true)).cfg.lockGrain = .call ∧
    (lockedRun (.synS16Le true)).me.seq.sidx.toNat < 2 * (lockedRun (.synS16Le true)).me.nfr.toNat ∧
    (lockedRun (.synS16Le true)).Admits (lockedRun (.synS16Le true)).me.seq.cur 2 := by
  unfold State.Admits; decide

/-- A SYN that has made its four samples, in a given phase. -/
def allSamplesMade (ph : Phase) (lock : Lock) : State :=
  { withPort { portIn ph (some (.synS16Le true)) with
      seq := { Seq.reset with phase := ph, cur := 0x1008, sidx := 4, prev := 5, op := some (.synS16Le true) } } with
    lock := lock }

theorem witness_DoneStepReturnsTheToken : isValid .s16Le = true ∧ (allSamplesMade .run (.held 0)).BetweenSamples ∧
    (allSamplesMade .run (.held 0)).me.seq.sidx.toNat = 2 * (allSamplesMade .run (.held 0)).me.nfr.toNat := by decide

/-- A port that waits to run a SYN of no frames. -/
def noFrames : State := withPort { portIn .waitLock (some (.synS16Le true)) with nfr := 0 }

theorem witness_SampleGrainLocksEachSample : (describe .s16Le).isSome = true ∧
    ((sampleGrain lastRange).Idle ∧ (sampleGrain lastRange).me.rangeFits 2 = true) ∧
    ((sampleGrain (waiting (.synS16Le true))).Waiting ∧ (sampleGrain (waiting (.synS16Le true))).lock = .free ∧
      (sampleGrain (waiting (.synS16Le true))).seeded = true ∧
      (sampleGrain (waiting (.synS16Le true))).me.seq.sidx.toNat < 4) ∧
    ((oneSample (.synS16Le true) 2 (sampleGrain (lockedRun (.synS16Le true)))).Running ∧
      (oneSample (.synS16Le true) 2 (sampleGrain (lockedRun (.synS16Le true)))).me.seq.out = [] ∧
      (oneSample (.synS16Le true) 2 (sampleGrain (lockedRun (.synS16Le true)))).me.seq.sent = true) ∧
    ((sampleGrain (lockedRun (.synS16Le true))).BetweenSamples ∧
      (sampleGrain (lockedRun (.synS16Le true))).Admits 0x1000 2) ∧
    ((sampleGrain noFrames).Waiting ∧ (sampleGrain noFrames).seeded = true ∧ (sampleGrain noFrames).lock = .free ∧
      (sampleGrain noFrames).me.seq.sidx = 0 ∧ (sampleGrain noFrames).me.nfr = 0) ∧
    ((sampleGrain (allSamplesMade .waitLock .free)).Waiting ∧
      (sampleGrain (allSamplesMade .waitLock .free)).me.seq.sidx = 4) := by
  unfold State.Admits; decide

theorem witness_SynRunsAsTheWholeSynthesis : (describe .s16Le).map Row.byteWidth = some 2 ∧ lastRange.Idle ∧
    lastRange.me.seq.out = [] ∧ lastRange.me.seq.sent = false ∧ lastRange.lock = .free ∧ lastRange.seeded = true ∧ lastRange.cfg.lockGrain = .call ∧
    (sampleGrain lastRange).cfg.lockGrain = .sample ∧ lastRange.me.buf.toNat + 2 * lastRange.me.nfr.toNat * 2 ≤ 2 ^ 64 ∧
    lastRange.Admits lastRange.me.buf (2 * lastRange.me.nfr.toNat * 2) := by
  unfold State.Admits; decide

theorem witness_SynBytesLieInOrder : (describe .s243Le).map Row.byteWidth = some 3 ∧
    (0xFFFFFFFFFFFFFFFA : Word).toNat + 2 * 3 ≤ 2 ^ 64 := by decide

theorem witness_SynthesisIsContinuous : (describe .s16Le).map Row.byteWidth = some 2 ∧ idleState.Idle ∧
    idleState.me.seq.out = [] ∧ idleState.me.seq.sent = false ∧ idleState.lock = .free ∧ idleState.seeded = true ∧ idleState.cfg.lockGrain = .call ∧ 0 + 2 < 2 ^ 32 ∧
    idleState.me.buf.toNat + 2 * (0 + 2) * 2 ≤ 2 ^ 64 ∧ idleState.Admits idleState.me.buf (2 * (0 + 2) * 2) := by
  unfold State.Admits; decide

/-- Port 0's host issues a SYN of two frames, and the schedule lets it finish. -/
def synScheduled : State :=
  { withPort { portIn .idle none with prog := [.write 0 0x34800000] } with
    sched := .host 0 :: List.replicate 10 (.sequencer 0) ++ [.host 1] }

theorem witness_SynCompletesInBoundedSteps : (describe .s16Le).map Row.byteWidth = some 2 ∧
    synScheduled.halted = false ∧ 0 < synScheduled.ports.length ∧ (synScheduled.port 0).seq.phase = .idle ∧
    (synScheduled.port 0).seq.out = [] ∧ (synScheduled.port 0).seq.sent = false ∧ synScheduled.lock = .free ∧ synScheduled.seeded = true ∧ synScheduled.cfg.lockGrain = .call ∧
    (synScheduled.port 0).rangeFits 2 = true ∧
    synScheduled.Admits (synScheduled.port 0).buf (2 * (synScheduled.port 0).nfr.toNat * 2) ∧
    (synScheduled.port 0).prog = .write 0 (commandValue (.syn .s16Le true)) :: [] ∧
    synScheduled.sched =
      .host 0 :: List.replicate (2 * (synScheduled.port 0).nfr.toNat * 2 + 2) (.sequencer 0) ++ [.host 1] := by
  unfold State.Admits; decide

/-- For the statements whose one hypothesis is that a format is concrete: the dithered and the zero sample, the bytes of the
formats. -/
theorem witness_concrete_formats : [Format.s8, .u8, .s16, .s16Le, .s16Be, .s24, .s24Le, .s24Be, .s243Le, .s243Be, .s32,
    .s32Le, .s32Be].all (fun f => (describe f).isSome) = true := by decide

theorem witness_SynFrame : (describe .s16Le).isSome = true ∧
    (lockedRun (.synS16Le true)).active < (lockedRun (.synS16Le true)).ports.length ∧
    ∃ t, exec (.syn .s16Le true) (lockedRun (.synS16Le true)) = .next t :=
  ⟨by decide, by decide, _, rfl⟩

theorem witness_SentinelFormatIsFatal : idleState.Idle := by decide

theorem witness_WrappingRangeIsRefused :
    (withPort { portIn .idle none with buf := 0xFFFFFFFFFFFFFFF9 }).Idle ∧
      2 ^ 64 < (0xFFFFFFFFFFFFFFF9 : Word).toNat + 2 * 2 * 2 := by decide

/-- An ENC that has written the first of its two bytes, and one that has written both. -/
def encHalf : State := oneSample .encS16Le 1 (running .encS16Le)
def encWritten : State := oneSample .encS16Le 2 (running .encS16Le)

theorem witness_EncWritesThePackedSample : (describe .s16Le).map Row.byteWidth = some 2 ∧
    ((running .encS16Le).BetweenSamples ∧ (running .encS16Le).Admits (running .encS16Le).me.buf 2) ∧
    encHalf.MidSample 0x1001 0x01 [] ∧
    (encWritten.Running ∧ encWritten.me.seq.out = [] ∧ encWritten.me.seq.sent = true) ∧
    (idleState.Idle ∧ idleState.me.seq.out = [] ∧ idleState.me.seq.sent = false ∧
      idleState.Admits idleState.me.buf 2) := by
  unfold State.Admits; decide

theorem witness_EncFrame : (describe .s32Be).isSome = true ∧
    (running .encS32Be).active < (running .encS32Be).ports.length ∧
    ∃ t, exec (.enc .s32Be) (running .encS32Be) = .next t :=
  ⟨by decide, by decide, _, rfl⟩

/-- The first byte, and the last one, that the platform does not admit. -/
theorem witness_UnadmittedWriteIsStuck : (describe .s32Be).map Row.byteWidth = some 4 ∧
    (∀ size ∈ [0, 3],
      (onPlatform size (lockedRun (.synS32Be true))).BetweenSamples ∧
        (onPlatform size (running .encS32Be)).BetweenSamples ∧
        (∀ j, j < size → admitted [{ base := 0x1000, size := size }] (0x1000 + BitVec.ofNat 64 j) = true) ∧
        admitted [{ base := 0x1000, size := size }] (0x1000 + BitVec.ofNat 64 size) = false) := by decide

theorem witness_WrittenBytesReadBack : (Memory.writeBytes [] 0xFFFFFFFFFFFFFFFF [1, 2]) =
      [(0, 2), (0xFFFFFFFFFFFFFFFF, 1)] ∧
    encHalf.active < encHalf.ports.length ∧ encHalf.me.seq.out = byteWrites 0x1001 [0x01] := by decide

/-- Port 0 has a byte of its sample left, port 1 is idle and its host is about to store beside port 0's buffer. -/
def besideEnc : State :=
  { encHalf with ports := [encHalf.port 0, { Port.reset with prog := [.store 0x1002 7] }], sched := [.host 1] }

theorem witness_StepWritesAtMostOneByte :
    (∃ t, step { encHalf with sched := [.sequencer 0] } = .next t ∧ t.mem ≠ encHalf.mem) ∧
      ∃ t, step besideEnc = .next t ∧ t.mem ≠ besideEnc.mem :=
  ⟨⟨_, rfl, by decide⟩, _, rfl, by decide⟩

theorem witness_DisjointBuffersAreUndisturbed : besideEnc.Inv ∧ besideEnc.BuffersDisjoint ∧
    (besideEnc.port 0).owns 0x1001 = true ∧ (besideEnc.port 0).owns 0x1002 = false ∧
    ∃ t, agentAct (.host 1) besideEnc = .next t := by
  refine ⟨by decide, ?_, by decide, by decide, _, rfl⟩
  intro p q a hpq h
  match p, q with
  | 0, 0 => exact absurd rfl hpq
  | 0, 1 => simp [besideEnc, State.port, Port.owns, Port.bufferBytes, Port.reset, Seq.reset]
  | 1, _ => simp [besideEnc, State.port, Port.owns, Port.bufferBytes, Port.reset, Seq.reset] at h
  | 0, q + 2 => simp [besideEnc, State.port, Port.owns, Port.bufferBytes, Port.reset, Seq.reset]
  | p + 2, _ => simp [besideEnc, State.port, Port.owns, Port.bufferBytes, Port.reset, Seq.reset] at h

theorem witness_FmtqRunStepAnswersTheRow : (running .fmtqAuto).Running := by decide

/-- Two finite values, a zero and a NaN, for the statements of the arithmetic and the comparisons. -/
theorem witness_arithmetic_operands : (F64.rat 0x8000000000000001).isSome = true ∧
    (F64.rat 0x7FEFFFFFFFFFFFFF).isSome = true ∧ F64.isNaN 0xFFF0000000000001 = true ∧
    (F64.rat 0x7FF0000000000000).isSome = false := by
  decide

theorem witness_VolumeClassesPartition : inRange 0xC03E000000000000 = true ∧ inRange 0x8000000000000000 = true ∧
    muted 0xC062000000000000 = true ∧ outOfRange 0xC03E000000000001 = true ∧ outOfRange 0x0000000000000001 = true ∧
    outOfRange 0x7FF0000000000001 = true := by decide

theorem witness_VolumeRunSteps : (running .vcFlat).Running ∧ inRange (running .vcFlat).me.vol = true ∧
    (running .vcTaper).Running ∧ inRange (running .vcTaper).me.vol = true ∧
    (running .vcSeg).Running ∧ inRange (running .vcSeg).me.vol = true := by decide

/-- A port that runs a VC command on a given volume. -/
def volumeState (vol : Word) : State := withPort { portIn .run (some .vcSeg) with vol := vol }

theorem witness_OutOfRangeVolumeIsDiagnosed : (volumeState 0x7FF8000000000000).Running ∧
    outOfRange (volumeState 0x7FF8000000000000).me.vol = true := by decide

theorem witness_MuteSentinelIsSilent : (volumeState 0xC062000000000000).Running ∧
    (volumeState 0xC062000000000000).me.vol = 0xC062000000000000 := by decide

theorem witness_ZeroDenominatorGuardIsKeptAndDead : F64.le 0xC03E000000000000 0xC03E000000000000 = true ∧
    (running .vcSeg).halted = false := by decide

/-- The ends of the range that the endpoint statements admit. -/
theorem witness_endpoints : (0x80000000 : Half).toInt ≤ (0x7FFFFFFF : Half).toInt ∧
    (0 : Half).toInt ≤ (0 : Half).toInt := by decide

theorem witness_Log2IsExactOnPowersOfTwo : F64.log2 (F64.round false 1 (-1074)) = F64.i2f (-1074) ∧
    F64.log2 0x3FF0000000000000 = 0 := by decide +kernel

theorem witness_Log2IsNegativeAndFinite : F64.lt 0 0x0000000000000001 = true ∧
    F64.lt 0x3FEFFFFFFFFFFFFF 0x3FF0000000000000 = true := by decide

theorem witness_Log2IsWithinOneUnit : F64.rat 0x3FE0000000000000 = some (1 / 2 : ℚ) ∧ (0 : ℚ) < 1 / 2 ∧ (1 / 2 : ℚ) < 1 := by
  simp only [F64.rat, show F64.unpack 0x3FE0000000000000 = .fin false (2 ^ 52) (-53) by decide]
  norm_num

theorem witness_RegisterCommandsFrame : (running .vcFlat).active < (running .vcFlat).ports.length ∧
    ∃ t, exec (.vc .flat) (running .vcFlat) = .next t :=
  ⟨by decide, _, rfl⟩

theorem witness_OperandRegistersReadBack : idleState.halted = false ∧ idleState.busy 0 = false ∧
    0 < idleState.ports.length ∧ 2 ≤ (2 : Slot).toNat ∧ (10 : Slot).toNat ≤ 10 := by decide

theorem witness_ReservedOffsetsDoNothing : (11 ≤ (11 : Slot).toNat ∧ (15 : Slot).toNat ≤ 15) ∧ 21 ≤ (21 : Slot).toNat ∧
    idleState.busy 0 = false ∧ 0 < idleState.ports.length ∧ (1 : Slot).toNat = 1 ∧ 11 ≤ (31 : Slot).toNat := by decide

/-- A halted block. -/
def haltedState : State := { idleState with fault := 0x0001, finfo := 14, sched := [.host 0] }

theorem witness_RegisterWriteChecksInOrder : haltedState.halted = true ∧
    ((running .vcFlat).halted = false ∧ (running .vcFlat).busy 0 = true) ∧
    (idleState.halted = false ∧ idleState.busy 0 = false ∧ decode 0 = .error .noSuchOpcode) ∧
    (decode 0x3E000000 = .ok (.synAuto false) ∧ (Instr.synAuto false).isRejected = true) := by decide

/-- The host of port 0 is about to write a value that is no command. -/
def faulting : State := withPort { portIn .idle none with prog := [.write 0 0x70000000] }

theorem witness_HaltedBlockIsFrozen : (haltedState.halted = true ∧ ∃ t, step haltedState = .next t) ∧
    faulting.halted = false ∧ ∃ t, agentAct (.host 0) faulting = .next t ∧ t.halted = true :=
  ⟨⟨by decide, _, rfl⟩, by decide, _, rfl, by decide⟩

/-- A port that runs a `DRAW` under the lock and moves next. -/
def drawing : State := { lockedRun .draw with sched := [.sequencer 0] }

theorem witness_steps_under_the_invariant : drawing.Inv ∧ (∃ t, step drawing = .next t) ∧ drawing.lock = .held 0 ∧
    drawing.halted = false ∧ (after (step drawing)).dither ≠ drawing.dither :=
  ⟨by decide, ⟨_, rfl⟩, by decide, by decide, by decide⟩

/-- Port 0 runs a `DRAW` under the lock, and the host of port 1 has a write to do. -/
def besideDraw : State :=
  { lockedRun .draw with ports := [portIn .run (some .draw), { Port.reset with prog := [.write 5 7] }] }

theorem witness_GeneratorMovesOnlyUnderTheLock : besideDraw.Inv ∧ besideDraw.lock = .held 0 ∧
    (∃ t, agentAct (.host 1) besideDraw = .next t) ∧
    ∃ t, agentAct (.sequencer 0) besideDraw = .next t ∧ t.dither ≠ besideDraw.dither :=
  ⟨by decide, by decide, ⟨_, rfl⟩, _, rfl, by decide⟩

theorem witness_UnseededGeneratorIsNeverRead : State.reset.Inv ∧ State.reset.seeded = false ∧
    unseeded.Inv ∧ unseeded.seeded = false := by decide

end Sys2Proof.Tests
end

/-! ## What a step of a command can do -/

namespace Sys2Proof

/-- A SYN is rejected where its format has no row (R122 to R124). -/
theorem Instr.isRejected_syn (f : Format) (dth : Bool) :
    (Instr.syn f dth).isRejected = true ↔ Machine.describe f = none := by
  cases f <;> simp [Instr.syn, Instr.isRejected, Instr.isSyn, Instr.isEnc, Instr.format, Instr.fields,
    CommandFields.plain, Format.ofCode, Machine.isValid, Machine.describe]

/-- An ENC is rejected where its format has no row (R122 to R124). -/
theorem Instr.isRejected_enc (f : Format) : (Instr.enc f).isRejected = true ↔ Machine.describe f = none := by
  cases f <;> simp [Instr.enc, Instr.isRejected, Instr.isSyn, Instr.isEnc, Instr.format, Instr.fields,
    CommandFields.plain, Format.ofCode, Machine.isValid, Machine.describe]

@[simp] theorem Instr.isSyn_syn (f : Format) (dth : Bool) : (Instr.syn f dth).isSyn = true := by cases f <;> rfl

@[simp] theorem Instr.isSyn_enc (f : Format) : (Instr.enc f).isSyn = false := by cases f <;> rfl

@[simp] theorem Instr.isEnc_enc (f : Format) : (Instr.enc f).isEnc = true := by cases f <;> rfl

@[simp] theorem Instr.format_syn (f : Format) (dth : Bool) : (Instr.syn f dth).format = f := by cases f <;> rfl

@[simp] theorem Instr.format_enc (f : Format) : (Instr.enc f).format = f := by cases f <;> rfl

@[simp] theorem Instr.dth_syn (f : Format) (dth : Bool) : (Instr.syn f dth).fields.dth = dth := by cases f <;> rfl

end Sys2Proof

namespace Sys2Proof.Machine

/-- Everything a command's step can make of a state: one case for each rule that gives a command a step. The cases that
begin a `MemWrite` have it admitted (R49). -/
inductive ExecStep (s : State) : Instr → State → Prop
  /-- The block cannot move, or no step of the command is enabled in this phase (R173, R186). -/
  | stays (i : Instr) : ExecStep s i s
  /-- The check for a sentinel format in the accepting step (R122 to R124). -/
  | rejects (i : Instr) (info : Word) (hs : s.Idle) (hi : i.isRejected = true) :
      ExecStep s i (raiseFatal .fmtSentinel info s)
  /-- The accepting step (R96, R105, R140). -/
  | accepts (i : Instr) (hs : s.Idle) (hi : i.isRejected = false) : ExecStep s i (accept i s)
  /-- The accepting step of a SYN whose samples are locked one by one (R137). -/
  | acceptsStream (i : Instr) (hs : s.Idle) (hi : i.isRejected = false) :
      ExecStep s i (accept i (s.setMe s.me.loadStream))
  /-- The acquire step (R95). -/
  | acquires (i : Instr) (load : Port → Port) (hs : s.Waiting) : ExecStep s i (acquire i load s)
  /-- The `done` step of a SYN whose samples are locked one by one (R137). -/
  | returnsToken (i : Instr) (hs : s.Waiting) : ExecStep s i (complete (synTokens s))
  /-- The run step of INIT (R96). -/
  | seeds (hs : s.Running) : ExecStep s .init (completeLocked (seedGenerator s))
  /-- The run step of DRAW (R97). -/
  | draws (hs : s.Running) : ExecStep s .draw (completeLocked (drawToRes s))
  /-- The run step of VC (R140). -/
  | scales (k : Curve) (hs : s.Running) :
      ExecStep s (.vc k) (volumeRun k (curve k s.me.vol s.me.maxInt s.me.minInt) s)
  /-- The run step of FMTQ (R83). -/
  | answers (f : Format) (hs : s.Running) :
      ExecStep s (.fmtq f) (complete (writeRes (describeWord s.cfg.nativeOrder f) s))
  /-- A further byte of a sample of SYN (R106). -/
  | synWrites (f : Format) (dth : Bool) (row : Row) (hs : s.Running) (hout : s.me.seq.out ≠ []) :
      ExecStep s (.syn f dth) (endSample row (writeNextByte s))
  /-- The release after a sample (R137). -/
  | releases (f : Format) (dth : Bool) (hs : s.Running) : ExecStep s (.syn f dth) (releaseSample s)
  /-- The first byte of a sample of SYN (R106). -/
  | synBegins (f : Format) (dth : Bool) (row : Row) (u : State) (hs : s.Running) (hout : s.me.seq.out = [])
      (hrow : describe f = some row)
      (hu : memWrite s.me.seq.cur (synBytes row dth s) (beginSample s) = .next u) :
      ExecStep s (.syn f dth) (endSample row u)
  /-- The `done` step of SYN (R105). -/
  | synDone (f : Format) (dth : Bool) (hs : s.Running) : ExecStep s (.syn f dth) (completeLocked (synTokens s))
  /-- A further byte of the sample of ENC (R134). -/
  | encWrites (f : Format) (hs : s.Running) (hout : s.me.seq.out ≠ []) : ExecStep s (.enc f) (writeNextByte s)
  /-- The completion of ENC (R134). -/
  | encDone (f : Format) (hs : s.Running) : ExecStep s (.enc f) (complete (s.setMe (s.me.withSent false)))
  /-- The first byte of the sample of ENC (R134). -/
  | encBegins (f : Format) (row : Row) (u : State) (hs : s.Running) (hout : s.me.seq.out = [])
      (hrow : describe f = some row)
      (hu : memWrite s.me.buf (pack s.cfg row s.me.hs) (s.setMe (s.me.withSent true)) = .next u) :
      ExecStep s (.enc f) u

/-! No check of a format rejects the other commands. -/

theorem isRejected_init : Instr.init.isRejected = false := rfl
theorem isRejected_draw : Instr.draw.isRejected = false := rfl
theorem isRejected_vc (k : Curve) : (Instr.vc k).isRejected = false := by cases k <;> rfl
theorem isRejected_fmtq (f : Format) : (Instr.fmtq f).isRejected = false := by cases f <;> rfl

/-- The steps of INIT and DRAW, given what their run step is. -/
theorem lockedCommand_step {i : Instr} {effect : State → State} {s t : State} (hi : i.isRejected = false)
    (hrun : s.Running → ExecStep s i (completeLocked (effect s))) (h : lockedCommand i effect s = .next t) :
    ExecStep s i t := by
  rcases byPhase_cases s (fun s => .next (accept i s)) (fun s => .next (acquire i id s))
    (fun s => .next (completeLocked (effect s))) with ⟨-, e⟩ | ⟨hl, hp, e⟩ | ⟨hl, hp, e⟩ | ⟨hl, hp, e⟩ <;>
    (rw [lockedCommand, e] at h; cases h)
  · exact .stays i
  · exact .accepts i ⟨hl, hp⟩ hi
  · exact .acquires i id ⟨hl, hp⟩
  · exact hrun ⟨hl, hp⟩

/-- The steps of VC, FMTQ and ENC, given what their run step is. -/
theorem plainCommand_step {i : Instr} {onRun : State → Outcome State} {s t : State} (hi : i.isRejected = false)
    (hrun : s.Running → onRun s = .next t → ExecStep s i t)
    (h : plainCommand (fun s => .next (accept i s)) onRun s = .next t) : ExecStep s i t := by
  rcases byPhase_cases s (fun s => .next (accept i s)) .next onRun with
    ⟨-, e⟩ | ⟨hl, hp, e⟩ | ⟨hl, hp, e⟩ | ⟨hl, hp, e⟩ <;> rw [plainCommand, e] at h
  · cases h; exact .stays i
  · cases h; exact .accepts i ⟨hl, hp⟩ hi
  · cases h; exact .stays i
  · exact hrun ⟨hl, hp⟩ h

/-- The steps of a SYN or ENC with a sentinel format. -/
theorem rejectSentinel_step {i : Instr} {f : Format} {s t : State} (hi : i.isRejected = true)
    (h : rejectSentinel f s = .next t) : ExecStep s i t := by
  rcases byPhase_cases s (fun s => .next (raiseFatal .fmtSentinel (f.code.zeroExtend 64) s)) .next .next with
    ⟨-, e⟩ | ⟨hl, hp, e⟩ | ⟨-, -, e⟩ | ⟨-, -, e⟩ <;> (rw [rejectSentinel, e] at h; cases h)
  · exact .stays i
  · exact .rejects i _ ⟨hl, hp⟩ hi
  · exact .stays i
  · exact .stays i

/-- The accepting step of a SYN with a concrete format. -/
theorem synAccept_step {f : Format} {dth : Bool} {row : Row} {s t : State} (hrow : describe f = some row)
    (hs : s.Idle) (h : synAccept (.syn f dth) row s = .next t) : ExecStep s (.syn f dth) t := by
  have hi : (Instr.syn f dth).isRejected = false := by
    rw [← Bool.not_eq_true, Instr.isRejected_syn, hrow]; simp
  rcases synAccept_cases (.syn f dth) row s with ⟨-, e⟩ | ⟨-, -, e⟩ | ⟨-, -, e⟩ <;> (rw [e] at h; cases h)
  · exact .accepts _ hs hi
  · exact .acceptsStream _ hs hi

/-- The step of a SYN that waits for the lock. -/
theorem synWait_step {i : Instr} {s t : State} (hs : s.Waiting) (h : synWait i s = .next t) : ExecStep s i t := by
  rcases synWait_cases i s with ⟨-, e⟩ | ⟨-, -, e⟩ | ⟨-, -, e⟩ <;> (rw [e] at h; cases h)
  · exact .acquires i _ hs
  · exact .returnsToken i hs
  · exact .acquires i _ hs

/-- The step of a SYN in `RUN`. -/
theorem synRun_step {f : Format} {dth : Bool} {row : Row} {s t : State} (hrow : describe f = some row)
    (hs : s.Running) (h : synRun row dth s = .next t) : ExecStep s (.syn f dth) t := by
  rcases synRun_cases row dth s with ⟨ho, e⟩ | ⟨-, -, e⟩ | ⟨ho, -, -, e⟩ | ⟨-, -, -, e⟩ | ⟨-, -, -, e⟩ <;> rw [e] at h
  · cases h; exact .synWrites f dth row hs ho
  · cases h; exact .releases f dth hs
  · obtain ⟨u, hu, rfl⟩ := thenNext_eq_next.mp h
    exact .synBegins f dth row u hs ho hrow hu
  · cases h; exact .synDone f dth hs
  · cases h; exact .stays _

/-- The run step of ENC. -/
theorem encRun_step {f : Format} {row : Row} {s t : State} (hrow : describe f = some row) (hs : s.Running)
    (h : encRun row s = .next t) : ExecStep s (.enc f) t := by
  rcases encRun_cases row s with ⟨ho, e⟩ | ⟨-, -, e⟩ | ⟨ho, -, e⟩ <;> rw [e] at h
  · cases h; exact .encWrites f hs ho
  · cases h; exact .encDone f hs
  · exact .encBegins f row t hs ho hrow h

/-- The steps of SYN. -/
theorem synthesize_step {f : Format} {dth : Bool} {s t : State} (h : synthesize (.syn f dth) f dth s = .next t) :
    ExecStep s (.syn f dth) t := by
  unfold synthesize at h
  cases hrow : describe f with
  | none =>
    rw [hrow] at h
    exact rejectSentinel_step ((Instr.isRejected_syn f dth).mpr hrow) h
  | some row =>
    simp only [hrow] at h
    rcases byPhase_cases s (synAccept (.syn f dth) row) (synWait (.syn f dth)) (synRun row dth) with
      ⟨-, e⟩ | ⟨hl, hp, e⟩ | ⟨hl, hp, e⟩ | ⟨hl, hp, e⟩ <;> rw [e] at h
    · cases h; exact .stays _
    · exact synAccept_step hrow ⟨hl, hp⟩ h
    · exact synWait_step ⟨hl, hp⟩ h
    · exact synRun_step hrow ⟨hl, hp⟩ h

/-- The steps of ENC. -/
theorem encodeSample_step {f : Format} {s t : State} (h : encodeSample (.enc f) f s = .next t) :
    ExecStep s (.enc f) t := by
  unfold encodeSample at h
  cases hrow : describe f with
  | none =>
    rw [hrow] at h
    exact rejectSentinel_step ((Instr.isRejected_enc f).mpr hrow) h
  | some row =>
    simp only [hrow] at h
    have hi : (Instr.enc f).isRejected = false := by
      rw [← Bool.not_eq_true, Instr.isRejected_enc, hrow]; simp
    exact plainCommand_step hi (encRun_step hrow) h

/-- A command's step answers a next state only in one of the ways of `ExecStep`. -/
theorem exec_step {i : Instr} {s t : State} (h : exec i s = .next t) : ExecStep s i t := by
  rcases i.family_cases with rfl | rfl | ⟨f, dth, rfl⟩ | ⟨k, rfl⟩ | ⟨f, rfl⟩ | ⟨f, rfl⟩
  · exact lockedCommand_step isRejected_init .seeds h
  · exact lockedCommand_step isRejected_draw .draws h
  · exact synthesize_step (exec_syn f dth s ▸ h)
  · refine plainCommand_step (isRejected_vc k) (fun hs hr => ?_) (exec_vc k s ▸ h)
    cases hr
    exact .scales k hs
  · refine plainCommand_step (isRejected_fmtq f) (fun hs hr => ?_) (exec_fmtq f s ▸ h)
    cases hr
    exact .answers f hs
  · exact encodeSample_step (exec_enc f s ▸ h)

/-! ## The guard of the Segmented curve -/

/-- The loop of R147 reaches its end where no segment's denominator is zero. -/
theorem segmentLoop_ok (vol : Word) {segs : List (Word × Word)}
    (h : ∀ p ∈ segs, F64.eq (F64.fsub fpMinus30 p.1) fp0 = false) (i : Nat) (acc : Word) :
    ∃ res, segmentLoop vol segs i acc = .ok res := by
  induction segs generalizing i acc with
  | nil => exact ⟨acc, rfl⟩
  | cons p rest ih =>
    obtain ⟨hp, hrest⟩ := List.forall_mem_cons.mp h
    simp only [segmentLoop, hp, Bool.false_eq_true, if_false]
    split
    · exact ih hrest _ _
    · exact ih hrest _ _

/-- Each denominator of the Segmented curve is a constant that is not zero, so the guard of R149 never fires. -/
theorem segmented_ne_zeroDenominator (vol : Word) (mx mn : Int) (i : Nat) :
    segmented vol mx mn ≠ .zeroDenominator i := by
  have h0 : F64.eq (F64.fsub fpMinus30 fp0) fp0 = false := by decide +kernel
  have h5 : F64.eq (F64.fsub fpMinus30 (F64.i2f (-5))) fp0 = false := by decide +kernel
  have h17 : F64.eq (F64.fsub fpMinus30 (F64.i2f (-17))) fp0 = false := by decide +kernel
  obtain ⟨res, hres⟩ := segmentLoop_ok vol (segs := segments (F64.i2f (mx - mn)))
    (by simp [segments, h0, h5, h17]) 0 fp0
  unfold segmented
  split
  · simp [hres]
  · simp [fallback]

/-- No curve answers a zero denominator. -/
theorem curve_ne_zeroDenominator (k : Curve) (vol : Word) (mx mn : Int) (i : Nat) :
    curve k vol mx mn ≠ .zeroDenominator i := by
  cases k with
  | flat => simp only [curve, flat, fallback]; split <;> simp
  | taper => simp only [curve, tapered, fallback]; split <;> simp
  | seg => exact segmented_ne_zeroDenominator vol mx mn i

end Sys2Proof.Machine

namespace Sys2Proof.Machine

/-! ## Which steps raise a fault -/

/-- A run step of VC raises no fault. -/
@[simp] theorem volumeRun_curve_fault (k : Curve) (vol : Word) (mx mn : Int) (s : State) :
    (volumeRun k (curve k vol mx mn) s).fault = s.fault := by
  rcases volumeRun_cases k (curve k vol mx mn) s with ⟨res, -, e⟩ | ⟨res, -, e⟩ | ⟨i, hi, -⟩
  · rw [e]; simp
  · rw [e]; simp
  · exact absurd hi (curve_ne_zeroDenominator k vol mx mn i)

/-- A step that begins a `MemWrite` keeps `FAULT`. -/
theorem memWrite_fault {addr : Word} {bytes : List Byte} {s t : State} (h : memWrite addr bytes s = .next t) :
    t.fault = s.fault := by
  rcases memWrite_cases addr bytes s with ⟨a, -, e⟩ | ⟨-, e⟩ <;> (rw [e] at h; cases h)
  simp

/-- The acquire step of a seeded block keeps `FAULT`. -/
theorem acquire_fault_of_seeded {i : Instr} {load : Port → Port} {s : State} (hs : s.seeded = true) :
    (acquire i load s).fault = s.fault := by
  rcases acquire_cases i load s with ⟨-, e⟩ | ⟨-, h, -, -⟩ | ⟨-, -, e⟩
  · rw [e]
  · simp [hs] at h
  · rw [e]; simp

/-- A command's step keeps `FAULT`, but for the check of a sentinel format and the acquire step of an unseeded block. -/
theorem ExecStep.fault_cases {i : Instr} {s t : State} (h : ExecStep s i t) :
    t.fault = s.fault ∨ (s.me.seq.phase = .idle ∧ i.isRejected = true) ∨
      (s.me.seq.phase = .waitLock ∧ s.seeded = false) := by
  cases h with
  | rejects _ info hs hi => exact .inr (.inl ⟨hs.2, hi⟩)
  | acquires _ load hs =>
    cases hseed : s.seeded with
    | true => exact .inl (acquire_fault_of_seeded hseed)
    | false => exact .inr (.inr ⟨hs.2, rfl⟩)
  | synBegins f dth row u hs ho hrow hu => exact .inl (by simpa using memWrite_fault hu)
  | encBegins f row _ hs ho hrow hu => exact .inl (by simpa using memWrite_fault hu)
  | seeds => exact .inl ((completeLocked_fault _).trans (seedGenerator_fault s))
  | draws => exact .inl ((completeLocked_fault _).trans (drawToRes_fault s))
  | _ => exact .inl (by simp)

/-- The accepting step of a SYN or ENC with a sentinel format raises `FMT_SENTINEL` (R122 to R124). -/
theorem exec_rejected {i : Instr} {s : State} (hi : i.isRejected = true) (hs : s.Idle) :
    ∃ info, exec i s = .next (raiseFatal .fmtSentinel info s) := by
  obtain ⟨hl, hp⟩ := hs
  rcases i.family_cases with rfl | rfl | ⟨f, dth, rfl⟩ | ⟨k, rfl⟩ | ⟨f, rfl⟩ | ⟨f, rfl⟩
  · simp [isRejected_init] at hi
  · simp [isRejected_draw] at hi
  · refine ⟨f.code.zeroExtend 64, ?_⟩
    rw [exec_syn, synthesize, (Instr.isRejected_syn f dth).mp hi]
    exact byPhase_idle hl hp _ _ _
  · simp [isRejected_vc] at hi
  · simp [isRejected_fmtq] at hi
  · refine ⟨f.code.zeroExtend 64, ?_⟩
    rw [exec_enc, encodeSample, (Instr.isRejected_enc f).mp hi]
    exact byPhase_idle hl hp _ _ _

/-! ## The machine's step at a scheduled agent -/

/-- A port with something for its host to do is a port of the block. -/
theorem lt_length_of_prog {s : State} {p : Nat} {x : HostAction} {rest : List HostAction}
    (h : (s.port p).prog = x :: rest) : p < s.ports.length := by
  by_contra hp
  have : s.port p = Port.reset := by
    simp [State.port, List.getD_eq_getElem?_getD, List.getElem?_eq_none (Nat.le_of_not_lt hp)]
  simp [this, Port.reset] at h

/-- The machine's step is that of the agent at the head of the schedule. -/
theorem step_of_sched {s : State} {g : Agent} {rest : List Agent} (h : s.sched = g :: rest) :
    step s = agentAct g { s with sched := rest } := by
  simp [step, machineStep, h]

/-- An agent whose move raises no fault makes it. -/
theorem agentAct_of_raises_false {g : Agent} {s : State} (h : raises g s = false) : agentAct g s = agentMove g s := by
  simp [agentAct, faultWaits, h]

/-- An agent moves where no port is between two byte writes of one sample. -/
theorem agentAct_of_not_midSample {g : Agent} {s : State} (h : s.midSample = false) :
    agentAct g s = agentMove g s := by
  simp [agentAct, faultWaits, h]

/-- An agent whose move would raise a fault waits while some port is between two byte writes of one sample (R176). -/
theorem agentAct_of_raises {g : Agent} {s : State} (hm : s.midSample = true) (h : raises g s = true) :
    agentAct g s = .next s := by
  simp [agentAct, faultWaits, hm, h]

/-- A move that keeps `FAULT` raises nothing. -/
theorem raises_eq_false {g : Agent} {s : State} (h : ∀ t, agentMove g s = .next t → t.fault = s.fault) :
    raises g s = false := by
  rw [← Bool.not_eq_true, raises_eq_true]
  rintro ⟨hs, t, ht, hh⟩
  simp [State.halted, h t ht] at hs hh
  exact hh hs

/-- A host's write of a command's value to `CMD` of its idle port is the command's step (R24, R175). -/
theorem agentMove_issue {s : State} {p : Nat} {v : Word} {i : Instr} {more : List HostAction}
    (hh : s.halted = false) (hb : s.busy p = false) (hprog : (s.port p).prog = .write 0 v :: more)
    (hd : decode v = .ok i) : agentMove (.host p) s = exec i ((s.withProg p more).actingAs p) := by
  have hp := lt_length_of_prog hprog
  have hb' : ((s.withProg p more).actingAs p).busy p = false := by
    simpa [State.busy, State.withProg, State.port_setPort_same, hp] using hb
  simp [agentMove, hostAct, hprog, hostWrite, hh, hb', hd]

/-- The sequencer of a busy port takes the next step of the port's command (R31). -/
theorem agentMove_sequencer {s : State} {p : Nat} {i : Instr} (hb : s.busy p = true)
    (ho : (s.port p).seq.op = some i) : agentMove (.sequencer p) s = exec i (s.actingAs p) := by
  rcases sequencerAct_cases p s with ⟨-, hi | hn⟩ | ⟨j, -, hj, e⟩
  · simp [State.busy, hi] at hb
  · simp [ho] at hn
  · rw [ho] at hj
    cases hj
    exact e

/-- The state in which the host of an idle port has issued a command: its port acts, and is idle. -/
theorem idle_of_issue {s : State} {p : Nat} {x : HostAction} {more : List HostAction} (hh : s.halted = false)
    (hb : s.busy p = false) (hprog : (s.port p).prog = x :: more) : ((s.withProg p more).actingAs p).Idle := by
  have hp := lt_length_of_prog hprog
  refine ⟨by simp [State.live, hh, hp], ?_⟩
  simpa [State.busy, State.withProg, State.port_setPort_same, hp] using hb

/-- A command issued to an idle port raises a fault exactly where it is rejected. -/
theorem raises_issue {s : State} {p : Nat} {v : Word} {i : Instr} {more : List HostAction}
    (hh : s.halted = false) (hb : s.busy p = false) (hprog : (s.port p).prog = .write 0 v :: more)
    (hd : decode v = .ok i) : raises (.host p) s = i.isRejected := by
  have hmove := agentMove_issue hh hb hprog hd
  have hidle := idle_of_issue hh hb hprog
  cases hi : i.isRejected with
  | true =>
    obtain ⟨info, e⟩ := exec_rejected hi hidle
    exact raises_eq_true.mpr ⟨hh, _, hmove.trans e, raiseFatal_halted _ _ _⟩
  | false =>
    refine raises_eq_false fun t ht => ?_
    rcases (exec_step (hmove.symm.trans ht)).fault_cases with e | ⟨-, hr⟩ | ⟨hw, -⟩
    · simpa using e
    · simp [hi] at hr
    · cases hidle.2.symm.trans hw

/-- The step of a busy port's sequencer raises no fault once the generator is seeded, or the port runs. -/
theorem raises_sequencer_eq_false {s : State} {p : Nat} {i : Instr} (hb : s.busy p = true)
    (ho : (s.port p).seq.op = some i) (h : s.seeded = true ∨ (s.port p).seq.phase = .run) :
    raises (.sequencer p) s = false := by
  refine raises_eq_false fun t ht => ?_
  rcases (exec_step ((agentMove_sequencer hb ho).symm.trans ht)).fault_cases with e | ⟨hp, -⟩ | ⟨hw, hs⟩
  · simpa using e
  · simp only [State.actingAs_me] at hp
    simp [State.busy, hp] at hb
  · simp only [State.actingAs_me, State.actingAs_seeded] at hw hs
    simp [hs, hw] at h

/-- Settles O4: an agent's step is its own move, and waits for the end of a sample exactly where the move raises a
fault, which the two kinds of step do only at the check for a sentinel format and at an unseeded acquire. -/
theorem stepRunsTheScheduledAgent : Obligations.StepRunsTheScheduledAgent := by
  refine ⟨fun s p v i more rest hh hb hs hprog hd => ?_, fun s p i rest hb hs ho => ?_⟩
  · have hmove := agentMove_issue (s := { s with sched := rest }) hh hb hprog hd
    have hraise := raises_issue (s := { s with sched := rest }) hh hb hprog hd
    rw [step_of_sched hs]
    refine ⟨fun h => ?_, fun hm hi _ => agentAct_of_raises (s := { s with sched := rest }) hm (hraise.trans hi)⟩
    rcases h with hm | hi
    · exact (agentAct_of_not_midSample (s := { s with sched := rest }) hm).trans hmove
    · exact (agentAct_of_raises_false (hraise.trans hi)).trans hmove
  · have hmove := agentMove_sequencer (s := { s with sched := rest }) hb ho
    rw [step_of_sched hs]
    refine ⟨fun h => ?_, fun t hm hh ht hth =>
      agentAct_of_raises (s := { s with sched := rest }) hm (raises_eq_true.mpr ⟨hh, t, hmove.trans ht, hth⟩)⟩
    rcases h with hm | h
    · exact (agentAct_of_not_midSample (s := { s with sched := rest }) hm).trans hmove
    · exact (agentAct_of_raises_false (raises_sequencer_eq_false (s := { s with sched := rest }) hb ho h)).trans hmove

end Sys2Proof.Machine

namespace Sys2Proof.Machine

/-! ## Which steps write memory -/

/-- One single-byte write of the acting port's `MemWrite`, by what it leaves: the byte in memory, the others still to be
written (R42, R46). -/
structure State.WritesByte (s t : State) (w : Word × Byte) (rest : List (Word × Byte)) : Prop where
  mem : t.mem = Memory.writeByte s.mem w.1.toNat w.2
  out : t.me.seq.out = rest
  active : t.active = s.active
  length : t.ports.length = s.ports.length

/-- Only the memory, the acting port's index and the number of ports before the write count. -/
theorem State.WritesByte.of_same {s s' t : State} {w : Word × Byte} {rest : List (Word × Byte)}
    (h : s'.WritesByte t w rest) (hmem : s'.mem = s.mem) (hactive : s'.active = s.active)
    (hlength : s'.ports.length = s.ports.length) : s.WritesByte t w rest :=
  ⟨hmem ▸ h.mem, h.out, h.active.trans hactive, h.length.trans hlength⟩

/-- The next single-byte write is the first of those left. -/
theorem writeNextByte_writes {s : State} {w : Word × Byte} {rest : List (Word × Byte)}
    (hp : s.active < s.ports.length) (hout : s.me.seq.out = w :: rest) : s.WritesByte (writeNextByte s) w rest := by
  rcases writeNextByte_cases s with ⟨hnil, -⟩ | ⟨a, b, rest', hcons, e⟩
  · simp [hnil] at hout
  · rw [hcons] at hout
    cases hout
    have hme : ({ s.setMe (s.me.withOut rest) with mem := Memory.writeByte s.mem a.toNat b } : State).me
        = s.me.withOut rest := State.me_setMe s _ hp
    rw [e]
    exact ⟨rfl, by rw [hme]; rfl, rfl, by simp⟩

/-- The end of a sample leaves memory, and what is left of the `MemWrite`, as the last byte write left them. -/
theorem State.WritesByte.endSample {s t : State} {w : Word × Byte} {rest : List (Word × Byte)} (row : Row)
    (hp : s.active < s.ports.length) (h : s.WritesByte t w rest) : s.WritesByte (endSample row t) w rest := by
  obtain ⟨hmem, hout, hactive, hlength⟩ := h
  rcases endSample_cases row t with ⟨-, e⟩ | ⟨-, e⟩
  · rw [e]
    exact ⟨hmem, by rw [State.me_setMe t _ (by omega)]; exact hout, hactive, by simpa using hlength⟩
  · rw [e]
    exact ⟨hmem, hout, hactive, hlength⟩

/-- The step that begins a `MemWrite` performs the first of its byte writes; one of no bytes writes nothing. -/
theorem memWrite_writes {addr : Word} {bytes : List Byte} {s t : State} (hp : s.active < s.ports.length)
    (h : memWrite addr bytes s = .next t) :
    t.mem = s.mem ∨ ∃ w rest, byteWrites addr bytes = w :: rest ∧ s.WritesByte t w rest := by
  rcases memWrite_cases addr bytes s with ⟨a, -, e⟩ | ⟨-, e⟩ <;> (rw [e] at h; cases h)
  have hme := State.me_setMe s (s.me.withOut (byteWrites addr bytes)) hp
  cases hw : byteWrites addr bytes with
  | nil =>
    left
    rcases writeNextByte_cases (s.setMe (s.me.withOut [])) with ⟨-, e⟩ | ⟨a, b, rest, hcons, -⟩
    · rw [e]; rfl
    · rw [← hw, hme, Port.withOut_seq_out, hw] at hcons
      cases hcons
  | cons w rest =>
    have hwrites := writeNextByte_writes (s := s.setMe (s.me.withOut (w :: rest))) (w := w) (rest := rest)
      (by simpa using hp) (by rw [← hw, hme, hw]; rfl)
    exact .inr ⟨w, rest, rfl, hwrites.of_same rfl rfl (by simp)⟩

@[simp] theorem raiseFatal_mem (c : FatalCode) (info : Word) (s : State) : (raiseFatal c info s).mem = s.mem := by
  rcases raiseFatal_cases c info s with ⟨-, e⟩ | ⟨-, e⟩ <;> rw [e]

@[simp] theorem acquire_mem (i : Instr) (load : Port → Port) (s : State) : (acquire i load s).mem = s.mem := by
  rcases acquire_cases i load s with ⟨-, e⟩ | ⟨-, -, -, e⟩ | ⟨-, -, e⟩ <;> rw [e]
  · simp
  · simp

@[simp] theorem volumeRun_mem (k : Curve) (r : CurveResult) (s : State) : (volumeRun k r s).mem = s.mem := by
  rcases volumeRun_cases k r s with ⟨res, -, e⟩ | ⟨res, -, e⟩ | ⟨i, -, e⟩ <;> rw [e] <;> simp

/-- Between two byte writes, the next writes of a port are those left. -/
theorem nextWrites_of_out {s : State} {p : Nat} {w : Word × Byte} {rest : List (Word × Byte)}
    (h : (s.port p).seq.out = w :: rest) : s.nextWrites p = w :: rest := by
  simp [State.nextWrites, h]

/-- The next writes of a SYN between two samples are those of its next sample (R106). -/
theorem nextWrites_syn {s : State} {p : Nat} {f : Format} {dth : Bool} {row : Row}
    (hout : (s.port p).seq.out = []) (hop : (s.port p).seq.op = some (.syn f dth)) (hrow : describe f = some row) :
    s.nextWrites p = byteWrites (s.port p).seq.cur (synBytes row dth (s.actingAs p)) := by
  simp [State.nextWrites, hout, hop, hrow]

/-- The next writes of an ENC that has not begun are those of its sample (R134). -/
theorem nextWrites_enc {s : State} {p : Nat} {f : Format} {row : Row} (hout : (s.port p).seq.out = [])
    (hop : (s.port p).seq.op = some (.enc f)) (hrow : describe f = some row) :
    s.nextWrites p = byteWrites (s.port p).buf (pack s.cfg row (s.port p).hs) := by
  simp [State.nextWrites, hout, hop, hrow]

/-- A port between two byte writes performs the first of its next byte writes. -/
theorem writeNextByte_writes_of_out_ne_nil {s : State} (hp : s.active < s.ports.length) (h : s.me.seq.out ≠ []) :
    ∃ w rest, s.nextWrites s.active = w :: rest ∧ s.WritesByte (writeNextByte s) w rest := by
  obtain ⟨w, rest, hw⟩ := List.exists_cons_of_ne_nil h
  exact ⟨w, rest, nextWrites_of_out hw, writeNextByte_writes hp hw⟩

/-- A step of the command that the acting port runs leaves memory alone, or performs the first of the port's next byte
writes. -/
theorem ExecStep.mem_cases {i : Instr} {s t : State} (h : ExecStep s i t) :
    t.mem = s.mem ∨ s.Running ∧ (s.me.seq.op = some i →
      ∃ w rest, s.nextWrites s.active = w :: rest ∧ s.WritesByte t w rest) := by
  cases h with
  | synWrites f dth row hs hout =>
    have hp := State.active_lt_of_live hs.1
    obtain ⟨w, rest, hn, hw⟩ := writeNextByte_writes_of_out_ne_nil hp hout
    exact .inr ⟨hs, fun _ => ⟨w, rest, hn, hw.endSample row hp⟩⟩
  | synBegins f dth row u hs hout hrow hu =>
    have hp := State.active_lt_of_live hs.1
    rcases memWrite_writes (by simpa [beginSample] using hp) hu with e | ⟨w, rest, hb, hw⟩
    · exact .inl (by simpa using e)
    · have hw := (hw.of_same (s := s) rfl rfl (by simp [beginSample])).endSample row hp
      exact .inr ⟨hs, fun hop => ⟨w, rest, (nextWrites_syn hout hop hrow).trans hb, hw⟩⟩
  | encWrites f hs hout =>
    exact .inr ⟨hs, fun _ => writeNextByte_writes_of_out_ne_nil (State.active_lt_of_live hs.1) hout⟩
  | encBegins f row _ hs hout hrow hu =>
    have hp := State.active_lt_of_live hs.1
    rcases memWrite_writes (by simpa using hp) hu with e | ⟨w, rest, hb, hw⟩
    · exact .inl e
    · have hw := hw.of_same (s := s) rfl rfl (by simp)
      exact .inr ⟨hs, fun hop => ⟨w, rest, (nextWrites_enc hout hop hrow).trans hb, hw⟩⟩
  | seeds => exact .inl ((completeLocked_mem _).trans (seedGenerator_mem s))
  | draws => exact .inl ((completeLocked_mem _).trans (drawToRes_mem s))
  | _ => exact .inl (by simp)

/-- The sequencer of some port, in a block that is not halted, performs the first of its next byte writes. -/
def State.SequencerWrites (s t : State) : Prop :=
  ∃ p a b rest, s.halted = false ∧ (s.port p).seq.phase = .run ∧ s.nextWrites p = (a, b) :: rest ∧
    (t.port p).seq.out = rest ∧ t.mem = Memory.writeByte s.mem a.toNat b

/-- A host stores a byte of its own where the platform admits it. -/
def State.HostStores (s t : State) : Prop :=
  ∃ p a b rest, (s.port p).prog = .store a b :: rest ∧ (t.port p).prog = rest ∧
    admitted s.platform a = true ∧ t.mem = Memory.writeByte s.mem a.toNat b

/-- A host's register write leaves memory alone: a command it issues is only accepted in this step. -/
theorem hostWrite_mem {p : Nat} {k : Slot} {v : Word} {s t : State} (h : hostWrite p k v s = .next t) :
    t.mem = s.mem := by
  rcases hostWrite_cases p k v s with
    ⟨-, e⟩ | ⟨-, -, e⟩ | ⟨-, -, -, -, e⟩ | ⟨i, -, hb, -, -, e⟩ | ⟨-, -, -, e⟩ <;> rw [e] at h
  · cases h; rfl
  · cases h; simp
  · cases h; simp
  · rcases (exec_step h).mem_cases with hm | ⟨⟨-, hrun⟩, -⟩
    · exact hm
    · simp only [State.actingAs_me] at hrun
      simp [State.busy, hrun] at hb
  · cases h; rfl

/-- A host's action leaves memory alone, or stores the byte it names. -/
theorem hostAct_mem_cases {p : Nat} {s t : State} (h : hostAct p s = .next t) : t.mem = s.mem ∨ s.HostStores t := by
  rcases hostAct_cases p s with ⟨-, e⟩ | ⟨k, v, rest, -, e⟩ | ⟨k, rest, -, e⟩ | ⟨rest, -, e⟩ |
    ⟨a, b, rest, hprog, e⟩ <;> rw [e] at h
  · cases h; exact .inl rfl
  · exact .inl (hostWrite_mem (s := s.withProg p rest) h)
  · cases h; exact .inl rfl
  · cases h; left; split <;> rfl
  · rcases hostStore_cases a b (s.withProg p rest) with ⟨ha, e'⟩ | ⟨-, e'⟩ <;> (rw [e'] at h; cases h)
    refine .inr ⟨p, a, b, rest, hprog, ?_, ha, rfl⟩
    exact congrArg Port.prog (State.port_setPort_same s p _ (lt_length_of_prog hprog))

/-- A sequencer's step leaves memory alone, or performs the first of its port's next byte writes. -/
theorem sequencerAct_mem_cases {p : Nat} {s t : State} (h : sequencerAct p s = .next t) :
    t.mem = s.mem ∨ s.SequencerWrites t := by
  rcases sequencerAct_cases p s with ⟨e, -⟩ | ⟨i, -, hop, e⟩ <;> rw [e] at h
  · cases h; exact .inl rfl
  · rcases (exec_step h).mem_cases with hm | ⟨⟨hl, hrun⟩, hw⟩
    · exact .inl hm
    · obtain ⟨⟨a, b⟩, rest, hn, hmem, hout, hactive, -⟩ := hw hop
      have hactive : t.active = p := hactive
      exact .inr ⟨p, a, b, rest, State.not_halted_of_live (s := s.actingAs p) hl, hrun, hn, hactive ▸ hout, hmem⟩

/-- An agent's step writes at most one byte. -/
theorem agentAct_mem_cases {g : Agent} {s t : State} (h : agentAct g s = .next t) :
    t.mem = s.mem ∨ s.SequencerWrites t ∨ s.HostStores t := by
  rcases agentAct_cases g s with ⟨e, -⟩ | ⟨e, -, -⟩ <;> rw [e] at h
  · cases g with
    | host p => exact (hostAct_mem_cases h).imp id .inr
    | sequencer p => exact (sequencerAct_mem_cases h).imp id .inl
  · cases h; exact .inl rfl

/-- Settles O32: by what each step of a command, and each action of a host, does to memory; neither the schedule nor
the count of free choices is looked at. -/
theorem stepWritesAtMostOneByte : Obligations.StepWritesAtMostOneByte := by
  intro s t h
  rcases step_cases s with ⟨g, rest, -, e⟩ | ⟨-, -, e⟩ | ⟨g, -, n, -, e⟩ <;> rw [e] at h
  · exact agentAct_mem_cases (s := { s with sched := rest }) h
  · cases h; exact .inl rfl
  · exact agentAct_mem_cases (s := { s with choices := n }) h

end Sys2Proof.Machine

namespace Sys2Proof.Machine.F64

/-! ## The values of patterns, in order

A finite value is a multiple of `2^-1074`, the smallest subnormal. `ulps n` says which one the `n`-th pattern of a sign stands
for; it goes on past the largest finite pattern as if the exponent had no end, so that rounding can be stated before overflow
is looked at. -/

/-- The magnitude of a pattern: its bits but the sign. -/
def mag (w : Word) : ℕ := (w.extractLsb' 0 63).toNat

/-- The magnitude of the infinities. -/
def infMag : ℕ := 2047 * 2 ^ 52

/-- The value of a magnitude, as a multiple of `2^-1074`. -/
def ulps (n : ℕ) : ℕ := if n < 2 ^ 52 then n else (n % 2 ^ 52 + 2 ^ 52) * 2 ^ (n / 2 ^ 52 - 1)

/-- The value of a place in the order of binary64 values (`key`), as a multiple of `2^-1074`. -/
def ulpsAt : ℤ → ℤ
  | .ofNat n => ulps n
  | .negSucc n => -ulps (n + 1)

/-- The smallest subnormal. -/
def ulp : ℚ := 2 ^ (-1074 : ℤ)

/-- A sign as a factor. -/
def sgn (neg : Bool) : ℚ := if neg then -1 else 1

theorem ulp_pos : 0 < ulp := zpow_pos (by norm_num) _

theorem ulp_mul_two_pow (k : ℕ) : ulp * 2 ^ k = 2 ^ ((k : ℤ) - 1074) := by
  rw [ulp, ← zpow_natCast, ← zpow_add₀ (by norm_num), sub_eq_neg_add]

/-- A significand `q` of at most 53 digits, or their carry, at exponent `k`: the value of the magnitude is `q * 2^k`. -/
theorem ulps_place {k q : ℕ} (hq : q ≤ 2 ^ 53) (h : k = 0 ∨ 2 ^ 52 ≤ q) : ulps (k * 2 ^ 52 + q) = q * 2 ^ k := by
  unfold ulps
  rcases Nat.lt_or_ge q (2 ^ 52) with hlt | hge
  · obtain rfl : k = 0 := by omega
    rw [Nat.zero_mul, Nat.zero_add, if_pos hlt, pow_zero, Nat.mul_one]
  · rw [if_neg (by omega)]
    rcases Nat.lt_or_ge q (2 ^ 53) with hlt | hcarry
    · rw [show (k * 2 ^ 52 + q) % 2 ^ 52 + 2 ^ 52 = q by omega, show (k * 2 ^ 52 + q) / 2 ^ 52 - 1 = k by omega]
    · obtain rfl : q = 2 ^ 53 := le_antisymm hq hcarry
      rw [show (k * 2 ^ 52 + 2 ^ 53) % 2 ^ 52 + 2 ^ 52 = 2 ^ 52 by omega,
        show (k * 2 ^ 52 + 2 ^ 53) / 2 ^ 52 - 1 = k + 1 by omega]
      ring

/-- Every magnitude has such a significand and exponent. -/
theorem exists_place (n : ℕ) : ∃ k q, q < 2 ^ 53 ∧ (k = 0 ∨ 2 ^ 52 ≤ q) ∧ n = k * 2 ^ 52 + q := by
  rcases Nat.lt_or_ge n (2 ^ 52) with h | h
  · exact ⟨0, n, by omega, .inl rfl, by omega⟩
  · exact ⟨n / 2 ^ 52 - 1, n % 2 ^ 52 + 2 ^ 52, by omega, .inr (by omega), by omega⟩

/-- The step from one value to the next is one unit in the last place. -/
theorem ulps_succ {k q : ℕ} (hq : q < 2 ^ 53) (h : k = 0 ∨ 2 ^ 52 ≤ q) :
    ulps (k * 2 ^ 52 + q + 1) = ulps (k * 2 ^ 52 + q) + 2 ^ k := by
  rw [add_assoc, ulps_place (q := q + 1) hq (by omega), ulps_place hq.le h]
  ring

/-- The values are in the order of their magnitudes. -/
theorem ulps_strictMono : StrictMono ulps := by
  refine strictMono_nat_of_lt_succ fun n => ?_
  obtain ⟨k, q, hq, h, rfl⟩ := exists_place n
  rw [ulps_succ hq h]
  exact Nat.lt_add_of_pos_right (by positivity)

@[simp] theorem ulps_zero : ulps 0 = 0 := rfl

@[simp] theorem ulpsAt_natCast (n : ℕ) : ulpsAt n = ulps n := rfl

@[simp] theorem ulpsAt_neg (k : ℤ) : ulpsAt (-k) = -ulpsAt k := by
  rcases k with (_ | n) | n
  · rfl
  · rfl
  · exact (neg_neg _).symm

/-- The values of both signs are in the order of their places. -/
theorem ulpsAt_strictMono : StrictMono ulpsAt := by
  refine strictMono_int_of_lt_succ fun k => ?_
  rcases k with n | n
  · exact Int.ofNat_lt.mpr (ulps_strictMono n.lt_add_one)
  · rw [show Int.negSucc n + 1 = -(n : ℤ) by omega, ulpsAt_neg, ulpsAt_natCast]
    exact Int.neg_lt_neg (Int.ofNat_lt.mpr (ulps_strictMono n.lt_add_one))

/-! ## What a pattern is -/

theorem mag_eq (w : Word) : mag w = w.toNat % 2 ^ 63 := by simp [mag]

theorem signBit_eq (w : Word) : signBit w = decide (2 ^ 63 ≤ w.toNat) := by
  have hw := w.isLt
  simp only [signBit, BitVec.getLsbD, Nat.testBit_eq_decide_div_mod_eq]
  exact decide_eq_decide.mpr (by omega)

theorem lsb_eq_false {w : Word} : w.getLsbD 0 = false ↔ mag w % 2 = 0 := by
  simp only [mag_eq, BitVec.getLsbD, Nat.testBit_zero, decide_eq_false_iff_not]
  omega

theorem key_eq (w : Word) : key w = if signBit w then -(mag w : ℤ) else mag w := rfl

theorem natAbs_key (w : Word) : (key w).natAbs = mag w := by
  rw [key_eq]; split <;> simp

theorem ulpsAt_key (w : Word) : (ulpsAt (key w) : ℚ) = sgn (signBit w) * ulps (mag w) := by
  cases h : signBit w <;> simp [key_eq, h, sgn]

/-- The two fields of a magnitude. -/
theorem unpack_eq (w : Word) : unpack w =
    if mag w / 2 ^ 52 = 2047 then (if mag w % 2 ^ 52 = 0 then .inf (signBit w) else .nan)
    else if mag w / 2 ^ 52 = 0 then .fin (signBit w) (mag w % 2 ^ 52) (if mag w % 2 ^ 52 = 0 then 0 else -1074)
    else .fin (signBit w) (mag w % 2 ^ 52 + 2 ^ 52) (((mag w / 2 ^ 52 : ℕ) : ℤ) - 1075) := by
  have hex : (w.extractLsb' 52 11).toNat = mag w / 2 ^ 52 := by
    rw [mag_eq, BitVec.extractLsb'_toNat, Nat.shiftRight_eq_div_pow]
    omega
  have hfr : (w.extractLsb' 0 52).toNat = mag w % 2 ^ 52 := by
    rw [mag_eq, BitVec.extractLsb'_toNat, Nat.shiftRight_zero]
    omega
  simp only [unpack, hex, hfr]

theorem unpack_nan {w : Word} (h : infMag < mag w) : unpack w = .nan := by
  have hw := mag_eq w
  rw [infMag] at h
  rw [unpack_eq, if_pos (by omega), if_neg (by omega)]

theorem unpack_inf {w : Word} (h : mag w = infMag) : unpack w = .inf (signBit w) := by
  rw [unpack_eq, h, infMag]
  rfl

/-- A finite pattern unpacks to its sign, a significand of at most 53 digits and an exponent, which give its value. -/
theorem unpack_fin {w : Word} (h : mag w < infMag) : ∃ m e, unpack w = .fin (signBit w) m e ∧ m < 2 ^ 53 ∧
    (m : ℚ) * 2 ^ e = ulps (mag w) * ulp := by
  rw [infMag] at h
  rw [unpack_eq, if_neg (by omega)]
  obtain ⟨k, q, hq, hk, hmag⟩ := exists_place (mag w)
  rcases Nat.lt_or_ge q (2 ^ 52) with hlt | hge
  · obtain rfl : k = 0 := by omega
    have hq' : mag w = q := by omega
    refine ⟨q, if q = 0 then 0 else -1074, ?_, by omega, ?_⟩
    · rw [if_pos (by omega), hq', Nat.mod_eq_of_lt hlt]
    · rw [hmag, ulps_place hq.le hk]
      split
      · simp [*]
      · simp [ulp]
  · have hex : mag w / 2 ^ 52 = k + 1 := by omega
    refine ⟨q, (k : ℤ) - 1074, ?_, hq, ?_⟩
    · rw [if_neg (by omega), show mag w % 2 ^ 52 + 2 ^ 52 = q by omega, hex]
      congr 1
      push_cast
      ring
    · rw [hmag, ulps_place hq.le hk, ← ulp_mul_two_pow]
      push_cast
      ring

theorem isNaN_iff {w : Word} : isNaN w = true ↔ infMag < mag w := by
  simp only [isNaN, beq_iff_eq]
  rcases Nat.lt_trichotomy (mag w) infMag with h | h | h
  · obtain ⟨m, e, hu, -⟩ := unpack_fin h
    simp [hu, h.le]
  · simp [unpack_inf h, h]
  · simp [unpack_nan h, h]

/-- The value of a pattern: that of its place, where the pattern is finite. -/
theorem rat_eq_some {w : Word} {r : ℚ} : rat w = some r ↔ mag w < infMag ∧ ulpsAt (key w) * ulp = r := by
  rcases Nat.lt_trichotomy (mag w) infMag with h | h | h
  · obtain ⟨m, e, hu, -, hv⟩ := unpack_fin h
    simp only [rat, hu, h, true_and, Option.some.injEq, ulpsAt_key, mul_assoc, hv, sgn]
  · simp [rat, unpack_inf h, h]
  · simp [rat, unpack_nan h, h.le]

theorem isNaN_eq_false_of_rat {w : Word} {r : ℚ} (h : rat w = some r) : isNaN w = false := by
  rw [← Bool.not_eq_true, isNaN_iff]
  exact Nat.not_lt_of_gt (rat_eq_some.mp h).1

/-! ## The comparisons -/

/-- Finite values are in the order of their places. -/
theorem rat_lt_iff {x y : Word} {r q : ℚ} (hx : rat x = some r) (hy : rat y = some q) :
    r < q ↔ key x < key y := by
  obtain ⟨-, rfl⟩ := rat_eq_some.mp hx
  obtain ⟨-, rfl⟩ := rat_eq_some.mp hy
  rw [mul_lt_mul_iff_left₀ ulp_pos, Int.cast_lt, ulpsAt_strictMono.lt_iff_lt]

theorem lt_iff {x y : Word} (hx : isNaN x = false) (hy : isNaN y = false) : lt x y = true ↔ key x < key y := by
  simp [lt, hx, hy]

theorem le_iff {x y : Word} (hx : isNaN x = false) (hy : isNaN y = false) : le x y = true ↔ key x ≤ key y := by
  simp [le, hx, hy]

theorem eq_iff {x y : Word} (hx : isNaN x = false) (hy : isNaN y = false) : eq x y = true ↔ key x = key y := by
  simp [eq, hx, hy]

theorem comparisons_nan {x y : Word} (h : isNaN x = true ∨ isNaN y = true) :
    lt x y = false ∧ le x y = false ∧ eq x y = false := by
  rcases h with h | h <;> simp [lt, le, eq, h]

/-- The comparisons of finite patterns are those of their values. -/
theorem comparisons_finite {x y : Word} {r q : ℚ} (hx : rat x = some r) (hy : rat y = some q) :
    (lt x y = true ↔ r < q) ∧ (le x y = true ↔ r ≤ q) ∧ (eq x y = true ↔ r = q) := by
  have hxy := rat_lt_iff hx hy
  have hyx := rat_lt_iff hy hx
  have nx := isNaN_eq_false_of_rat hx
  have ny := isNaN_eq_false_of_rat hy
  refine ⟨(lt_iff nx ny).trans hxy.symm, (le_iff nx ny).trans ?_, (eq_iff nx ny).trans ?_⟩
  · rw [← not_lt, ← not_lt, hyx]
  · simp only [le_antisymm_iff, ← not_lt, hxy, hyx]

/-- The place of a finite pattern lies between those of the infinities. -/
theorem key_bounds {x : Word} {r : ℚ} (h : rat x = some r) :
    key (infinity true) < key x ∧ key x < key (infinity false) := by
  have hx := (rat_eq_some.mp h).1
  have habs := natAbs_key x
  rw [show key (infinity true) = -(infMag : ℤ) by decide, show key (infinity false) = (infMag : ℤ) by decide]
  omega

/-- Settles O36: the order of the values is that of the places the comparisons compare. -/
theorem comparisonsAreByValue : Obligations.ComparisonsAreByValue := by
  refine ⟨fun x => ?_, fun x y => comparisons_nan, fun x y r q => comparisons_finite, fun x r h => ?_⟩
  · have hmask : (x &&& 0x7FFFFFFFFFFFFFFF).toNat = mag x := by
      rw [mag_eq, BitVec.toNat_and]
      exact Nat.and_two_pow_sub_one_eq_mod x.toNat 63
    rw [isNaN_iff, hmask]
    rfl
  · obtain ⟨hlo, hhi⟩ := key_bounds h
    have nx := isNaN_eq_false_of_rat h
    have np : isNaN (infinity false) = false := by decide
    have nn : isNaN (infinity true) = false := by decide
    refine ⟨(lt_iff nx np).mpr hhi, (lt_iff nn nx).mpr hlo, ?_, ?_⟩
    · exact Bool.eq_false_iff.mpr (mt (le_iff np nx).mp hhi.not_ge)
    · exact Bool.eq_false_iff.mpr (mt (le_iff nx nn).mp hlo.not_ge)

end Sys2Proof.Machine.F64

namespace Sys2Proof.Machine.F64

/-! ## Rounding to nearest, ties to even

`IsNearestEven q y` says it of a significand, `NearestAt K X` of a place in the order of values. -/

/-- `q` is `y` rounded to the nearest integer, ties to even. -/
def IsNearestEven (q : ℕ) (y : ℚ) : Prop := |q - y| ≤ 1 / 2 ∧ (|q - y| = 1 / 2 → q % 2 = 0)

/-- No value is nearer to `X` than that of place `K`, and one that is as near leaves `K` even. -/
def NearestAt (K : ℤ) (X : ℚ) : Prop :=
  ∀ k : ℤ, |ulpsAt K - X| ≤ |ulpsAt k - X| ∧ (|ulpsAt k - X| = |ulpsAt K - X| → k ≠ K → K % 2 = 0)

/-- `m` stands for `x` with its last digit sticky: it is `x`, or it is odd and less than one away, with digits to spare. -/
def Stands (m : ℕ) (x : ℚ) : Prop := x = m ∨ (m % 2 = 1 ∧ 2 ^ 54 ≤ m ∧ |x - m| < 1)

theorem isNearestEven_self (q : ℕ) : IsNearestEven q (q : ℚ) := by
  constructor <;> norm_num

/-- A significand's rounding is no larger than a whole number that the significand is at most. -/
theorem IsNearestEven.le {q b : ℕ} {y : ℚ} (h : IsNearestEven q y) (hy : y ≤ b) : q ≤ b := by
  have h1 := (abs_le.mp h.1).2
  have : (q : ℚ) < b + 1 := by linarith
  exact Nat.lt_succ_iff.mp (by exact_mod_cast this)

/-- A significand's rounding is no smaller than a whole number that the significand is at least. -/
theorem IsNearestEven.ge {q b : ℕ} {y : ℚ} (h : IsNearestEven q y) (hy : b ≤ y) : b ≤ q := by
  have h1 := (abs_le.mp h.1).1
  have : (b : ℚ) < q + 1 := by linarith
  exact Nat.lt_succ_iff.mp (by exact_mod_cast this)

/-- Rounding a quotient, without the division. -/
theorem isNearestEven_div_iff {q : ℕ} {x d : ℚ} (hd : 0 < d) :
    IsNearestEven q (x / d) ↔ 2 * |q * d - x| ≤ d ∧ (2 * |q * d - x| = d → q % 2 = 0) := by
  have habs : |(q : ℚ) - x / d| = |q * d - x| / d := by
    rw [← abs_of_pos hd, ← abs_div, abs_of_pos hd, sub_div, mul_div_cancel_right₀ _ hd.ne']
  rw [IsNearestEven, habs, div_le_div_iff₀ hd two_pos, div_eq_div_iff hd.ne' two_ne_zero]
  simp only [one_mul, mul_comm _ (2 : ℚ)]

/-- Rounding a quotient of whole numbers, in whole numbers. -/
theorem isNearestEven_natDiv_iff {q m d : ℕ} (hd : 0 < d) :
    IsNearestEven q (m / d : ℚ) ↔ 2 * |(q : ℤ) * d - m| ≤ d ∧ (2 * |(q : ℤ) * d - m| = d → q % 2 = 0) := by
  rw [isNearestEven_div_iff (by exact_mod_cast hd)]
  norm_cast

/-- `shiftRightEven` rounds the quotient. -/
theorem isNearestEven_shiftRightEven (m k : ℕ) : IsNearestEven (shiftRightEven m k) (m / 2 ^ k) := by
  have hd : 0 < 2 ^ k := by positivity
  have hlt : m % 2 ^ k < 2 ^ k := Nat.mod_lt m hd
  have hm : (m : ℤ) = (m / 2 ^ k : ℕ) * (2 ^ k : ℕ) + (m % 2 ^ k : ℕ) := by
    exact_mod_cast (Nat.div_add_mod' m (2 ^ k)).symm
  have hcast : (m : ℚ) / 2 ^ k = m / (2 ^ k : ℕ) := by push_cast; rfl
  rw [hcast, isNearestEven_natDiv_iff hd, shiftRightEven, hm]
  generalize 2 ^ k = d at *
  generalize m % d = r at *
  generalize m / d = q at *
  split
  case isTrue hup =>
    have hdist : |((q + 1 : ℕ) : ℤ) * d - (q * d + r)| = d - r := by
      rw [show ((q + 1 : ℕ) : ℤ) * d - (q * d + r) = d - r by push_cast; ring]
      exact abs_of_nonneg (by omega)
    rw [hdist]
    omega
  case isFalse hdown =>
    have hdist : |(q : ℤ) * d - (q * d + r)| = r := by simp
    rw [hdist]
    omega

/-- A sticky digit below the last two places rounds as what it stands for. -/
theorem IsNearestEven.of_sticky {q m k : ℕ} {x : ℚ} (h : IsNearestEven q (m / 2 ^ (k + 2))) (hm : m % 2 = 1)
    (hx : |x - m| < 1) : IsNearestEven q (x / 2 ^ (k + 2)) := by
  have hd : (2 : ℕ) ^ (k + 2) = 4 * 2 ^ k := by ring
  have hcast : (m : ℚ) / 2 ^ (k + 2) = m / (2 ^ (k + 2) : ℕ) := by push_cast; rfl
  rw [hcast, isNearestEven_natDiv_iff (by positivity), hd] at h
  have hint : 2 * (|(q : ℤ) * (4 * 2 ^ k : ℕ) - m| + 1) ≤ (4 * 2 ^ k : ℕ) := by
    obtain ⟨hle, -⟩ := h
    have hprod : (q : ℤ) * (4 * 2 ^ k : ℕ) = 4 * (q * (2 ^ k : ℕ)) := by push_cast; ring
    rw [hprod] at hle ⊢
    generalize (q : ℤ) * (2 ^ k : ℕ) = a at *
    generalize 2 ^ k = b at *
    rcases abs_cases (4 * a - (m : ℤ)) with ⟨e, -⟩ | ⟨e, -⟩ <;> (rw [e] at hle ⊢; omega)
  have hrat : 2 * (|(q : ℚ) * (4 * 2 ^ k : ℕ) - m| + 1) ≤ (4 * 2 ^ k : ℕ) := by exact_mod_cast hint
  have hlt : 2 * |(q : ℚ) * (4 * 2 ^ k : ℕ) - x| < (4 * 2 ^ k : ℕ) := by
    have htri := abs_sub_le ((q : ℚ) * (4 * 2 ^ k : ℕ)) m x
    rw [abs_sub_comm (m : ℚ) x] at htri
    linarith
  have hd' : (2 : ℚ) ^ (k + 2) = (4 * 2 ^ k : ℕ) := by rw [← hd]; push_cast; rfl
  rw [hd', isNearestEven_div_iff (by positivity)]
  exact ⟨hlt.le, fun e => absurd e hlt.ne⟩

/-- Every value above `q * 2^k` is at least a unit of its place above it. -/
theorem ulpsAt_above {k q : ℕ} {j : ℤ} (hq : q ≤ 2 ^ 53) (h : k = 0 ∨ 2 ^ 52 ≤ q)
    (hj : ((k * 2 ^ 52 + q : ℕ) : ℤ) < j) : ((q : ℤ) + 1) * 2 ^ k ≤ ulpsAt j := by
  have hnext : ((q : ℤ) + 1) * 2 ^ k ≤ ulps (k * 2 ^ 52 + q + 1) := by
    rcases Nat.lt_or_ge q (2 ^ 53) with hlt | hcarry
    · rw [ulps_succ hlt h, ulps_place hq h]
      push_cast
      exact le_of_eq (by ring)
    · obtain rfl : q = 2 ^ 53 := le_antisymm hq hcarry
      rw [show k * 2 ^ 52 + 2 ^ 53 + 1 = (k + 1) * 2 ^ 52 + (2 ^ 52 + 1) by ring,
        ulps_place (by norm_num) (by norm_num)]
      have hpow : (2 : ℤ) ^ (k + 1) = 2 * 2 ^ k := pow_succ' 2 k
      have hpos : (0 : ℤ) < 2 ^ k := by positivity
      push_cast
      rw [hpow]
      linarith
  exact hnext.trans (ulpsAt_strictMono.monotone (a := ((k * 2 ^ 52 + q + 1 : ℕ) : ℤ)) (by omega))

/-- Every value below `q * 2^k` is at least a unit of its place below it, where `q` does not begin a binade. -/
theorem ulpsAt_below {k q : ℕ} {j : ℤ} (hq : q ≤ 2 ^ 53) (h : k = 0 ∨ 2 ^ 52 < q)
    (hj : j < ((k * 2 ^ 52 + q : ℕ) : ℤ)) : ulpsAt j ≤ ((q : ℤ) - 1) * 2 ^ k := by
  have hprev : ulpsAt (((k * 2 ^ 52 + q : ℕ) : ℤ) - 1) = ((q : ℤ) - 1) * 2 ^ k := by
    cases q with
    | zero =>
      obtain rfl : k = 0 := by omega
      rfl
    | succ q =>
      rw [show ((k * 2 ^ 52 + (q + 1) : ℕ) : ℤ) - 1 = ((k * 2 ^ 52 + q : ℕ) : ℤ) by omega, ulpsAt_natCast,
        ulps_place (by omega) (by omega)]
      push_cast
      ring
  rw [← hprev]
  exact ulpsAt_strictMono.monotone (by omega)

/-- A value at least half a unit of the place away from `y` is no nearer than the rounding of `y`. -/
theorem IsNearestEven.le_of_half_away {q : ℕ} {y u g : ℚ} (h : IsNearestEven q y) (hg : 0 < g)
    (hu : 1 / 2 * g ≤ |u - y * g|) :
    |q * g - y * g| ≤ |u - y * g| ∧ (|u - y * g| = |q * g - y * g| → q % 2 = 0) := by
  obtain ⟨hdist, htie⟩ := h
  have hq : |q * g - y * g| = |q - y| * g := by rw [← sub_mul, abs_mul, abs_of_pos hg]
  rw [hq]
  refine ⟨(mul_le_mul_of_nonneg_right hdist hg.le).trans hu, fun e => htie (le_antisymm hdist ?_)⟩
  exact le_of_mul_le_mul_right (hu.trans e.le) hg

/-- A significand rounded to nearest, at its place, is a value rounded to nearest: the values next to `q * 2^k` are at
least `2^k` away, but below a power of two, where `y` is not. -/
theorem IsNearestEven.nearestAt {k q : ℕ} {y : ℚ} (h : IsNearestEven q y) (hy : y ≤ 2 ^ 53)
    (hk : k = 0 ∨ 2 ^ 52 ≤ y) : NearestAt ((k * 2 ^ 52 + q : ℕ) : ℤ) (y * 2 ^ k) := by
  have hq : q ≤ 2 ^ 53 := h.le (by exact_mod_cast hy)
  have hkq : k = 0 ∨ 2 ^ 52 ≤ q := hk.imp_right fun hge => h.ge (by exact_mod_cast hge)
  have hg : (0 : ℚ) < 2 ^ k := by positivity
  have hK : (ulpsAt ((k * 2 ^ 52 + q : ℕ) : ℤ) : ℚ) = q * 2 ^ k := by
    rw [ulpsAt_natCast, ulps_place hq hkq]; push_cast; rfl
  have heven : q % 2 = 0 → ((k * 2 ^ 52 + q : ℕ) : ℤ) % 2 = 0 := by omega
  obtain ⟨hlo, hhi⟩ := abs_le.mp h.1
  intro j
  rw [hK]
  rcases lt_trichotomy j ((k * 2 ^ 52 + q : ℕ) : ℤ) with hj | rfl | hj
  · by_cases hbelow : k = 0 ∨ 2 ^ 52 < q
    · have hu : (ulpsAt j : ℚ) ≤ (q - 1) * 2 ^ k := by exact_mod_cast ulpsAt_below hq hbelow hj
      have haway : 1 / 2 * 2 ^ k ≤ |(ulpsAt j : ℚ) - y * 2 ^ k| := by
        rw [abs_sub_comm]
        exact le_trans (by nlinarith) (le_abs_self _)
      exact (h.le_of_half_away hg haway).imp_right fun ht e _ => heven (ht e)
    · have hq52 : (q : ℚ) ≤ y := by
        obtain rfl : q = 2 ^ 52 := by omega
        exact_mod_cast hk.resolve_left fun h0 => hbelow (.inl h0)
      have hu : (ulpsAt j : ℚ) < q * 2 ^ k := by
        rw [← hK]; exact_mod_cast ulpsAt_strictMono hj
      have hqy : (q : ℚ) * 2 ^ k ≤ y * 2 ^ k := mul_le_mul_of_nonneg_right hq52 hg.le
      rw [abs_of_nonpos (sub_nonpos.mpr hqy), abs_of_nonpos (by linarith)]
      exact ⟨by linarith, fun e => by linarith⟩
  · exact ⟨by rw [hK], fun _ hne => absurd rfl hne⟩
  · have hu : ((q : ℚ) + 1) * 2 ^ k ≤ ulpsAt j := by exact_mod_cast ulpsAt_above hq hkq hj
    have haway : 1 / 2 * 2 ^ k ≤ |(ulpsAt j : ℚ) - y * 2 ^ k| := le_trans (by nlinarith) (le_abs_self _)
    exact (h.le_of_half_away hg haway).imp_right fun ht e _ => heven (ht e)

/-- Rounding is the same on both sides of zero. -/
theorem NearestAt.neg {K : ℤ} {X : ℚ} (h : NearestAt K X) : NearestAt (-K) (-X) := by
  intro k
  have hflip : ∀ j : ℤ, |(ulpsAt (-j) : ℚ) - -X| = |ulpsAt j - X| := fun j => by
    rw [ulpsAt_neg, Int.cast_neg, ← abs_neg]; congr 1; ring
  obtain ⟨hle, htie⟩ := h (-k)
  have hk := hflip (-k)
  rw [neg_neg] at hk
  rw [hflip K, hk]
  exact ⟨hle, fun e hne => by have := htie e (by omega); omega⟩

/-! ## Overflow -/

/-- With `g` half the unit of the largest binade, as a multiple of `2^-1074`: the value that infinity's magnitude stands for
here, the largest finite value, and the overflow threshold of IEEE 754 halfway between them. -/
theorem exists_halfTopUlp : ∃ g : ℕ, 0 < g ∧ ulps infMag = 2 ^ 54 * g ∧ ulps (infMag - 1) = (2 ^ 54 - 2) * g ∧
    (2 : ℚ) ^ 1024 - 2 ^ 970 = (2 ^ 54 - 1) * g * ulp := by
  obtain ⟨e, he⟩ : ∃ e : ℕ, e = 2044 := ⟨_, rfl⟩
  have hinf : infMag = (e + 2) * 2 ^ 52 + 2 ^ 52 := by rw [he]; rfl
  have hmax : infMag - 1 = (e + 1) * 2 ^ 52 + (2 ^ 53 - 1) := by rw [he]; rfl
  have hulp : (2 ^ e : ℚ) * ulp = 2 ^ 970 := by
    rw [mul_comm, ulp_mul_two_pow, show (e : ℤ) - 1074 = (970 : ℕ) by omega, zpow_natCast]
  refine ⟨2 ^ e, by positivity, ?_, ?_, ?_⟩
  · rw [hinf, ulps_place (by norm_num) (by norm_num)]
    ring
  · rw [hmax, ulps_place (by norm_num) (by norm_num)]
    ring
  · rw [Nat.cast_pow, Nat.cast_ofNat, mul_assoc, hulp, show 1024 = 54 + 970 from rfl, pow_add, sub_one_mul]

/-- A rounded magnitude reaches that of infinity exactly from the threshold on. -/
theorem NearestAt.infMag_le_iff {M : ℕ} {X : ℚ} (h : NearestAt M X) :
    infMag ≤ M ↔ (2 : ℚ) ^ 1024 - 2 ^ 970 ≤ X * ulp := by
  obtain ⟨g, hpos, hinf, hmax, hthreshold⟩ := exists_halfTopUlp
  have hg : (0 : ℚ) < g := by exact_mod_cast hpos
  have hinf' : (ulpsAt infMag : ℚ) = 2 ^ 54 * g := by
    rw [ulpsAt_natCast, hinf]; push_cast; rfl
  have hmax' : (ulpsAt ((infMag - 1 : ℕ) : ℤ) : ℚ) = (2 ^ 54 - 2) * g := by
    rw [ulpsAt_natCast, hmax]; push_cast; norm_num
  rw [hthreshold, mul_le_mul_iff_left₀ ulp_pos]
  constructor
  · intro hM
    have hu : (2 : ℚ) ^ 54 * g ≤ ulpsAt M := by
      rw [← hinf']; exact_mod_cast ulpsAt_strictMono.monotone (Int.ofNat_le.mpr hM)
    have hle := (h ((infMag - 1 : ℕ) : ℤ)).1
    rw [hmax'] at hle
    by_contra hX
    have := le_abs_self ((ulpsAt M : ℚ) - X)
    rcases abs_cases ((2 ^ 54 - 2) * (g : ℚ) - X) with ⟨e, -⟩ | ⟨e, -⟩ <;> rw [e] at hle <;> linarith
  · intro hX
    by_contra hM
    have hu : (ulpsAt M : ℚ) ≤ (2 ^ 54 - 2) * g := by
      rw [← hmax']; exact_mod_cast ulpsAt_strictMono.monotone (Int.ofNat_le.mpr (by omega))
    obtain ⟨hle, htie⟩ := h infMag
    rw [hinf', abs_of_nonpos (a := (ulpsAt M : ℚ) - X) (by linarith)] at hle htie
    have hmid : X = (2 ^ 54 - 1) * g ∧ (ulpsAt M : ℚ) = (2 ^ 54 - 2) * g := by
      rcases abs_cases (2 ^ 54 * (g : ℚ) - X) with ⟨e, -⟩ | ⟨e, -⟩ <;> rw [e] at hle <;>
        constructor <;> linarith
    obtain ⟨rfl, hM'⟩ := hmid
    have hlast : (M : ℤ) = (infMag - 1 : ℕ) := ulpsAt_strictMono.injective (by exact_mod_cast hM'.trans hmax'.symm)
    have heven := htie (by rw [hM', abs_of_nonneg] <;> linarith) (by omega)
    rw [hlast] at heven
    exact absurd heven (by decide)

/-! ## The pattern of a rounded magnitude -/

/-- The pattern of a sign and a magnitude, an infinity where the magnitude has passed the largest finite one. -/
def pattern (neg : Bool) (M : ℕ) : Word :=
  if infMag ≤ M then infinity neg else BitVec.ofNat 64 (M + if neg then 2 ^ 63 else 0)

theorem toNat_pattern {neg : Bool} {M : ℕ} (h : M < infMag) :
    (pattern neg M).toNat = M + if neg then 2 ^ 63 else 0 := by
  have hlt : M < 2 ^ 63 := h.trans (by norm_num [infMag])
  rw [pattern, if_neg (by omega), BitVec.toNat_ofNat, Nat.mod_eq_of_lt]
  cases neg <;> simp <;> omega

theorem mag_pattern {neg : Bool} {M : ℕ} (h : M < infMag) : mag (pattern neg M) = M := by
  have hlt : M < 2 ^ 63 := h.trans (by norm_num [infMag])
  rw [mag_eq, toNat_pattern h]
  cases neg <;> simp <;> omega

theorem signBit_pattern (neg : Bool) (M : ℕ) : signBit (pattern neg M) = neg := by
  rcases Nat.lt_or_ge M infMag with h | h
  · have hlt : M < 2 ^ 63 := h.trans (by norm_num [infMag])
    rw [signBit_eq, toNat_pattern h]
    cases neg <;> simp
    omega
  · rw [pattern, if_pos h]
    cases neg <;> decide

theorem zero_eq_pattern (neg : Bool) : zero neg = pattern neg 0 := by cases neg <;> decide

/-- The value of a pattern of a finite magnitude. -/
theorem rat_pattern {neg : Bool} {M : ℕ} (h : M < infMag) : rat (pattern neg M) = some (sgn neg * ulps M * ulp) := by
  rw [rat_eq_some, ulpsAt_key, mag_pattern h, signBit_pattern]
  exact ⟨h, rfl⟩

/-- A finite pattern whose place is the nearest one is the rounding. -/
theorem exists_rat_nearest {w : Word} {X : ℚ} (hw : mag w < infMag) (h : NearestAt (key w) X) :
    ∃ r, rat w = some r ∧ ∀ (v : Word) (s : ℚ), rat v = some s →
      |r - X * ulp| ≤ |s - X * ulp| ∧ (|s - X * ulp| = |r - X * ulp| → s ≠ r → w.getLsbD 0 = false) := by
  refine ⟨_, rat_eq_some.mpr ⟨hw, rfl⟩, fun v s hv => ?_⟩
  obtain ⟨-, rfl⟩ := rat_eq_some.mp hv
  have hscale : ∀ k : ℤ, |(ulpsAt k : ℚ) * ulp - X * ulp| = |ulpsAt k - X| * ulp := fun k => by
    rw [← sub_mul, abs_mul, abs_of_pos ulp_pos]
  obtain ⟨hle, htie⟩ := h (key v)
  rw [hscale, hscale, mul_le_mul_iff_left₀ ulp_pos, mul_left_inj' ulp_pos.ne']
  refine ⟨hle, fun e hne => lsb_eq_false.mpr ?_⟩
  have heven := htie e fun hk => hne (by rw [hk])
  have habs := natAbs_key w
  omega

/-- A sign and a magnitude rounded to nearest are a rational rounded to nearest. -/
theorem roundsTo_pattern (neg : Bool) {M : ℕ} {X : ℚ} (hX : 0 ≤ X) (h : NearestAt M X) :
    RoundsTo (pattern neg M) (sgn neg * (X * ulp)) := by
  have hpos : 0 ≤ X * ulp := mul_nonneg hX ulp_pos.le
  have habs : |sgn neg * (X * ulp)| = X * ulp := by
    rw [abs_mul, abs_of_nonneg hpos]; cases neg <;> simp [sgn]
  have hsign : sgn neg * (X * ulp) ≠ 0 → decide (sgn neg * (X * ulp) < 0) = neg := fun hne => by
    have hlt : 0 < X * ulp := lt_of_le_of_ne hpos fun e => hne (by rw [← e, mul_zero])
    cases neg with
    | false => simpa [sgn] using hpos
    | true => simpa [sgn] using hlt
  refine ⟨fun hne => by rw [signBit_pattern, hsign hne], ?_⟩
  rw [habs]
  split
  case isTrue hover =>
    have hlarge : (0 : ℚ) < 2 ^ 1024 - 2 ^ 970 := sub_pos.mpr (pow_lt_pow_right₀ (by norm_num) (by norm_num))
    have hne : sgn neg * (X * ulp) ≠ 0 := fun e => by
      rw [e, abs_zero] at habs
      exact absurd (hlarge.trans_le hover) (by rw [← habs]; exact lt_irrefl 0)
    rw [pattern, if_pos (h.infMag_le_iff.mpr hover), hsign hne]
  case isFalse hfin =>
    have hM : M < infMag := by
      rw [← not_le, h.infMag_le_iff]; exact hfin
    rw [← mul_assoc]
    refine exists_rat_nearest ((mag_pattern hM).trans_lt hM) ?_
    rw [key_eq, mag_pattern hM, signBit_pattern]
    cases neg with
    | false => simpa [sgn] using h
    | true => simpa [sgn] using h.neg

end Sys2Proof.Machine.F64

namespace Sys2Proof.Machine.F64

/-! ## `round` rounds once -/

/-- The exponent of the last place that `round` keeps (R8). -/
def placeOf (m : ℕ) (e : ℤ) : ℤ := max (e + bitLength m - 53) (-1074)

/-- The significand that `round` keeps. -/
def significand (m : ℕ) (e : ℤ) : ℕ :=
  if placeOf m e ≤ e then m * 2 ^ (e - placeOf m e).toNat else shiftRightEven m (placeOf m e - e).toNat

/-- What `round` answers for a nonzero value: the pattern of the sign, the place and the significand. -/
theorem round_eq_pattern (neg : Bool) {m : ℕ} (hm : m ≠ 0) (e : ℤ) :
    round neg m e = pattern neg ((placeOf m e + 1074).toNat * 2 ^ 52 + significand m e) := by
  simp only [round, if_neg hm]
  rfl

/-- What a number stands for has as many digits as the number, and is the number itself where those are few. -/
theorem Stands.digits {m : ℕ} {x : ℚ} (hm : m ≠ 0) (h : Stands m x) :
    ∃ l : ℕ, bitLength m = l + 1 ∧ 2 ^ l ≤ x ∧ x < 2 ^ (l + 1) ∧ (x = m ∨ 54 ≤ l) := by
  have hlow : 2 ^ m.log2 ≤ m := Nat.log2_self_le hm
  have hhigh : m < 2 ^ (m.log2 + 1) := Nat.lt_log2_self
  refine ⟨m.log2, by rw [bitLength, if_neg hm], ?_⟩
  rcases h with rfl | ⟨hodd, hlarge, hx⟩
  · exact ⟨by exact_mod_cast hlow, by exact_mod_cast hhigh, .inl rfl⟩
  · have hl : 54 ≤ m.log2 := (Nat.le_log2 hm).mpr hlarge
    obtain ⟨d, hd⟩ : ∃ d, m.log2 = d + 1 := ⟨m.log2 - 1, by omega⟩
    have hlow' : 2 ^ m.log2 + 1 ≤ m := by rw [hd, pow_succ] at hlow ⊢; omega
    obtain ⟨hx1, hx2⟩ := abs_lt.mp hx
    have hlowQ : (2 : ℚ) ^ m.log2 + 1 ≤ m := by exact_mod_cast hlow'
    have hhighQ : (m : ℚ) + 1 ≤ 2 ^ (m.log2 + 1) := by exact_mod_cast hhigh
    exact ⟨by linarith, by linarith, .inr hl⟩

/-- The significand is the value rounded at the place. -/
theorem isNearestEven_significand {m : ℕ} {x : ℚ} (hm : m ≠ 0) (h : Stands m x) (e : ℤ) :
    IsNearestEven (significand m e) (x * 2 ^ (e - placeOf m e)) := by
  obtain ⟨l, hl, -, -, hexact⟩ := h.digits hm
  have hplace : e + l - 52 ≤ placeOf m e := by
    refine le_trans ?_ (le_max_left _ _)
    rw [hl]; push_cast; omega
  unfold significand
  split
  case isTrue hle =>
    obtain rfl : x = m := hexact.resolve_right (by omega)
    rw [show (m : ℚ) * 2 ^ (e - placeOf m e) = (m * 2 ^ (e - placeOf m e).toNat : ℕ) by
      push_cast; rw [← zpow_natCast, Int.toNat_of_nonneg (by omega)]]
    exact isNearestEven_self _
  case isFalse hlt =>
    obtain ⟨d, hd⟩ := Int.eq_ofNat_of_zero_le (show 0 ≤ placeOf m e - e by omega)
    rw [show e - placeOf m e = -(d : ℤ) by omega, hd, zpow_neg, zpow_natCast, ← div_eq_mul_inv, Int.toNat_natCast]
    have hround := isNearestEven_shiftRightEven m d
    rcases h with rfl | ⟨hodd, -, hx⟩
    · exact hround
    · rcases hexact with rfl | hmany
      · exact hround
      · obtain ⟨d, rfl⟩ : ∃ d', d = d' + 2 := ⟨d - 2, by omega⟩
        exact hround.of_sticky hodd hx

theorem two_zpow_mul (i j : ℤ) : (2 : ℚ) ^ i * 2 ^ j = 2 ^ (i + j) := (zpow_add₀ two_ne_zero i j).symm

/-- The value at its place has 53 digits, or fewer where the place is the last one there is. -/
theorem place_bounds {m : ℕ} {x : ℚ} (hm : m ≠ 0) (h : Stands m x) (e : ℤ) :
    x * 2 ^ (e - placeOf m e) ≤ 2 ^ 53 ∧
      ((placeOf m e + 1074).toNat = 0 ∨ 2 ^ 52 ≤ x * 2 ^ (e - placeOf m e)) := by
  obtain ⟨l, hl, hlow, hhigh, -⟩ := h.digits hm
  have hplace : placeOf m e = max (e + l - 52) (-1074) := by
    rw [placeOf, hl]; push_cast; congr 1; ring
  have hx : 0 ≤ x := le_trans (by positivity) hlow
  rw [← zpow_natCast] at hlow hhigh
  constructor
  · calc x * 2 ^ (e - placeOf m e) ≤ 2 ^ ((l + 1 : ℕ) : ℤ) * 2 ^ (52 - (l : ℤ)) :=
        mul_le_mul hhigh.le (zpow_le_zpow_right₀ one_le_two (by omega)) (by positivity) (by positivity)
      _ = 2 ^ 53 := by rw [two_zpow_mul, ← zpow_natCast]; congr 1; push_cast; ring
  · refine or_iff_not_imp_left.mpr fun hk => ?_
    calc (2 : ℚ) ^ 52 = 2 ^ (l : ℤ) * 2 ^ (52 - (l : ℤ)) := by
          rw [two_zpow_mul, ← zpow_natCast]; congr 1; push_cast; ring
      _ ≤ x * 2 ^ (e - placeOf m e) :=
        mul_le_mul hlow (zpow_le_zpow_right₀ one_le_two (by omega)) (by positivity) hx

theorem nearestAt_zero : NearestAt (0 : ℕ) 0 := fun k => ⟨by simp [show ulpsAt 0 = 0 from rfl], fun _ _ => rfl⟩

/-- A zero is zero, rounded. -/
theorem roundsTo_zero (neg : Bool) : RoundsTo (zero neg) 0 := by
  simpa [zero_eq_pattern] using roundsTo_pattern neg le_rfl nearestAt_zero

/-- `round` rounds what its argument stands for to nearest, ties to even. -/
theorem round_roundsTo (neg : Bool) {m : ℕ} {x : ℚ} (h : Stands m x) (e : ℤ) :
    RoundsTo (round neg m e) (sgn neg * (x * 2 ^ e)) := by
  by_cases hm : m = 0
  · obtain rfl : x = 0 := by
      rcases h with rfl | ⟨hodd, -⟩
      · simp [hm]
      · simp [hm] at hodd
    simpa [round, hm] using roundsTo_zero neg
  · obtain ⟨hupper, hlower⟩ := place_bounds hm h e
    obtain ⟨l, -, hlow, -⟩ := h.digits hm
    have hx : 0 ≤ x := le_trans (by positivity) hlow
    have hplace : -1074 ≤ placeOf m e := le_max_right _ _
    have hscale : x * 2 ^ (e - placeOf m e) * 2 ^ (placeOf m e + 1074).toNat * ulp = x * 2 ^ e := by
      rw [mul_assoc, mul_comm _ ulp, ulp_mul_two_pow, Int.toNat_of_nonneg (by omega), mul_assoc, two_zpow_mul]
      congr 2; ring
    rw [round_eq_pattern neg hm, ← hscale]
    exact roundsTo_pattern neg (by positivity) ((isNearestEven_significand hm h e).nearestAt hupper hlower)

/-- `round` of a whole number of a power of two. -/
theorem round_roundsTo_self (neg : Bool) (m : ℕ) (e : ℤ) : RoundsTo (round neg m e) (sgn neg * (m * 2 ^ e)) :=
  round_roundsTo neg (.inl rfl) e

/-- An integer is its sign and its distance from zero. -/
theorem sgn_mul_natAbs (n : ℤ) : sgn (decide (n < 0)) * (n.natAbs : ℕ) = n := by
  rcases lt_or_ge n 0 with h | h
  · obtain ⟨k, rfl⟩ := Int.eq_negSucc_of_lt_zero h
    simp [sgn]
  · obtain ⟨k, rfl⟩ := Int.eq_ofNat_of_zero_le h
    simp [sgn]

/-- `round` of an integer of a power of two. -/
theorem round_int_roundsTo (n e : ℤ) : RoundsTo (round (decide (n < 0)) n.natAbs e) (n * 2 ^ e) := by
  rw [← sgn_mul_natAbs n, mul_assoc]
  exact round_roundsTo_self _ _ _

/-! ## The operations -/

/-- A finite pattern in the form the operations read it. -/
theorem rat_unpack {x : Word} {r : ℚ} (h : rat x = some r) :
    ∃ m e, unpack x = .fin (signBit x) m e ∧ m < 2 ^ 53 ∧ sgn (signBit x) * (m * 2 ^ e) = r := by
  obtain ⟨hx, hr⟩ := rat_eq_some.mp h
  obtain ⟨m, e, hu, hm, hv⟩ := unpack_fin hx
  exact ⟨m, e, hu, hm, by rw [hv, ← mul_assoc, ← ulpsAt_key, hr]⟩

theorem sgn_ne_zero (s : Bool) : sgn s ≠ 0 := by cases s <;> simp [sgn]

/-- The sign of a product. -/
theorem sgn_bne (s t : Bool) : sgn (s != t) = sgn s * sgn t := by cases s <;> cases t <;> simp [sgn]

theorem sgn_inv (s : Bool) : (sgn s)⁻¹ = sgn s := by cases s <;> norm_num [sgn]

/-- A significand of a zero value is zero. -/
theorem significand_eq_zero {s : Bool} {m : ℕ} {e : ℤ} (h : sgn s * (m * (2 : ℚ) ^ e) = 0) : m = 0 := by
  have hpow : (2 : ℚ) ^ e ≠ 0 := by positivity
  simpa [sgn_ne_zero, hpow] using h

@[simp] theorem round_zero (neg : Bool) (e : ℤ) : round neg 0 e = zero neg := if_pos rfl

/-- A negation changes the sign and nothing else. -/
theorem mag_fneg (y : Word) : mag (fneg y) = mag y := by
  have hc : (0x8000000000000000#64).extractLsb' 0 63 = 0 := by decide
  rw [mag, mag, fneg, BitVec.extractLsb'_xor, hc]
  simp

theorem signBit_fneg (y : Word) : signBit (fneg y) = !signBit y := by
  simp [signBit, fneg]

theorem rat_fneg {y : Word} {q : ℚ} (h : rat y = some q) : rat (fneg y) = some (-q) := by
  obtain ⟨hy, rfl⟩ := rat_eq_some.mp h
  rw [rat_eq_some, ulpsAt_key, ulpsAt_key, mag_fneg, signBit_fneg]
  refine ⟨hy, ?_⟩
  cases signBit y <;> simp [sgn]

theorem isNaN_fneg (y : Word) : isNaN (fneg y) = isNaN y := by
  rw [Bool.eq_iff_iff, isNaN_iff, isNaN_iff, mag_fneg]

/-- A significand moved to a lower exponent is the same value. -/
theorem scaled_mul (neg : Bool) (m : ℕ) {e low : ℤ} (h : low ≤ e) :
    (scaled neg m e low : ℚ) * 2 ^ low = sgn neg * (m * 2 ^ e) := by
  have hpow : (2 : ℚ) ^ (e - low).toNat * 2 ^ low = 2 ^ e := by
    rw [← zpow_natCast, Int.toNat_of_nonneg (by omega), two_zpow_mul, sub_add_cancel]
  rw [← hpow]
  cases neg <;> simp [scaled, sgn] <;> ring

/-- The sum of finite values is exact, rounded once; an exact zero sum has the sign both share, else `+0` (R8). -/
theorem fadd_finite {x y : Word} {r q : ℚ} (hx : rat x = some r) (hy : rat y = some q) :
    RoundsTo (fadd x y) (r + q) ∧ (r + q = 0 → fadd x y = zero (signBit x && signBit y)) := by
  obtain ⟨m, e, ux, -, rfl⟩ := rat_unpack hx
  obtain ⟨n, f, uy, -, rfl⟩ := rat_unpack hy
  simp only [fadd, ux, uy]
  rw [← scaled_mul _ m (min_le_left e f), ← scaled_mul _ n (min_le_right e f), ← add_mul, ← Int.cast_add]
  generalize scaled (signBit x) m e (min e f) + scaled (signBit y) n f (min e f) = sum
  split
  case isTrue hzero =>
    rw [hzero, Int.cast_zero, zero_mul]
    exact ⟨roundsTo_zero _, fun _ => rfl⟩
  case isFalse hne =>
    refine ⟨round_int_roundsTo sum _, fun h => absurd h (mul_ne_zero ?_ ?_)⟩
    · exact_mod_cast hne
    · positivity

/-- The product of finite values is exact, rounded once, with the sign of the operands' signs (R8). -/
theorem fmul_finite {x y : Word} {r q : ℚ} (hx : rat x = some r) (hy : rat y = some q) :
    RoundsTo (fmul x y) (r * q) ∧ (r * q = 0 → fmul x y = zero (signBit x != signBit y)) := by
  obtain ⟨m, e, ux, -, rfl⟩ := rat_unpack hx
  obtain ⟨n, f, uy, -, rfl⟩ := rat_unpack hy
  have hprod : sgn (signBit x) * (m * 2 ^ e) * (sgn (signBit y) * (n * 2 ^ f)) =
      sgn (signBit x != signBit y) * ((m * n : ℕ) * 2 ^ (e + f)) := by
    rw [sgn_bne, ← two_zpow_mul]; push_cast; ring
  simp only [fmul, ux, uy]
  rw [hprod]
  refine ⟨round_roundsTo_self _ _ _, fun h => ?_⟩
  rw [significand_eq_zero h, round_zero]

/-- The digits of a quotient, with the remainder recorded in one digit below them, stand for the quotient. -/
theorem stands_quotient {m n : ℕ} (hn : 0 < n) (hn' : n < 2 ^ 53) :
    Stands (2 * (m * 2 ^ quotientPlaces / n) + if m * 2 ^ quotientPlaces % n = 0 then 0 else 1)
      (2 * (m * 2 ^ quotientPlaces : ℕ) / n) := by
  have hn0 : (0 : ℚ) < n := by exact_mod_cast hn
  have hD : m * 2 ^ quotientPlaces = 0 ∨ 2 ^ 120 ≤ m * 2 ^ quotientPlaces :=
    m.eq_zero_or_pos.imp (fun h => by rw [h, Nat.zero_mul]) (Nat.le_mul_of_pos_left _)
  generalize m * 2 ^ quotientPlaces = D at *
  have hsplit : (D : ℚ) = n * (D / n : ℕ) + (D % n : ℕ) := by exact_mod_cast (Nat.div_add_mod D n).symm
  split
  case isTrue hr =>
    left
    rw [hsplit, hr]
    field_simp
    push_cast
    ring
  case isFalse hr =>
    have hlarge : 2 ^ 54 ≤ D / n := (Nat.le_div_iff_mul_le hn).mpr <| calc
      2 ^ 54 * n ≤ 2 ^ 120 := by omega
      _ ≤ D := hD.resolve_left fun h => hr (by rw [h, Nat.zero_mod])
    have hlt : D % n < n := Nat.mod_lt D hn
    rw [hsplit]
    generalize D / n = Q at *
    generalize D % n = R at *
    have hdist : 2 * (n * Q + R : ℚ) / n - (2 * Q + 1 : ℕ) = 2 * (R / n) - 1 := by
      field_simp
      push_cast
      ring
    have hfrac : (0 : ℚ) < R / n ∧ (R : ℚ) / n < 1 :=
      ⟨div_pos (by exact_mod_cast Nat.pos_of_ne_zero hr) hn0, (div_lt_one hn0).mpr (by exact_mod_cast hlt)⟩
    refine .inr ⟨by omega, by omega, ?_⟩
    rw [hdist, abs_lt]
    constructor <;> linarith

/-- The quotient of finite values is exact, rounded once, with the sign of the operands' signs (R8). -/
theorem fdiv_finite {x y : Word} {r q : ℚ} (hx : rat x = some r) (hy : rat y = some q) (hq : q ≠ 0) :
    RoundsTo (fdiv x y) (r / q) ∧ (r = 0 → fdiv x y = zero (signBit x != signBit y)) := by
  obtain ⟨m, e, ux, -, rfl⟩ := rat_unpack hx
  obtain ⟨n, f, uy, hn, rfl⟩ := rat_unpack hy
  have hn0 : n ≠ 0 := fun h => hq (by simp [h])
  have hquot : sgn (signBit x) * (m * 2 ^ e) / (sgn (signBit y) * (n * 2 ^ f)) =
      sgn (signBit x != signBit y) *
        (2 * (m * 2 ^ quotientPlaces : ℕ) / n * 2 ^ (e - f - quotientPlaces - 1)) := by
    have hpow : (2 : ℚ) * 2 ^ quotientPlaces * 2 ^ (e - f - quotientPlaces - 1) = 2 ^ e * (2 ^ f)⁻¹ := by
      rw [← zpow_neg, two_zpow_mul, ← zpow_natCast, ← zpow_one_add₀ two_ne_zero, two_zpow_mul]
      congr 1; ring
    calc sgn (signBit x) * (m * 2 ^ e) / (sgn (signBit y) * (n * 2 ^ f))
        = sgn (signBit x) * (sgn (signBit y))⁻¹ * (m / n * (2 ^ e * (2 ^ f)⁻¹)) := by
          rw [div_eq_mul_inv, mul_inv, mul_inv]; ring
      _ = _ := by
          rw [sgn_inv, ← sgn_bne, ← hpow]; push_cast; ring
  simp only [fdiv, ux, uy, if_neg hn0]
  refine ⟨hquot ▸ round_roundsTo _ (stands_quotient (Nat.pos_of_ne_zero hn0) hn) _, fun h => ?_⟩
  simp [significand_eq_zero h]

/-- An operation with a NaN operand answers the quiet NaN (R8; log 19). -/
theorem operations_nan {x y : Word} (h : isNaN x = true ∨ isNaN y = true) :
    fadd x y = quietNaN ∧ fmul x y = quietNaN ∧ fdiv x y = quietNaN := by
  rcases h with h | h
  · have hx := unpack_nan (isNaN_iff.mp h)
    simp [fadd, fmul, fdiv, hx]
  · have hy := unpack_nan (isNaN_iff.mp h)
    cases hx : unpack x <;> simp [fadd, fmul, fdiv, hx, hy]

/-! ## Integers -/

/-- Every whole number up to `2^53` is the value of a finite magnitude. -/
theorem exists_ulps_eq {m : ℕ} (h : m ≤ 2 ^ 53) : ∃ M < infMag, (ulps M : ℚ) * ulp = m := by
  by_cases hm : m = 0
  · exact ⟨0, by norm_num [infMag], by simp [hm]⟩
  · have hlow : 2 ^ m.log2 ≤ m := Nat.log2_self_le hm
    have hhigh : m < 2 ^ (m.log2 + 1) := Nat.lt_log2_self
    obtain ⟨j, hj, hge, hle⟩ : ∃ j ≤ 52, 2 ^ 52 ≤ m * 2 ^ j ∧ m * 2 ^ j ≤ 2 ^ 53 := by
      rcases Nat.lt_or_ge m (2 ^ 53) with hlt | hfull
      · have hl : m.log2 ≤ 52 := Nat.lt_succ_iff.mp ((Nat.log2_lt hm).mpr hlt)
        refine ⟨52 - m.log2, by omega, ?_, ?_⟩
        · calc 2 ^ 52 = 2 ^ m.log2 * 2 ^ (52 - m.log2) := by rw [← pow_add]; congr 1; omega
            _ ≤ m * 2 ^ (52 - m.log2) := Nat.mul_le_mul_right _ hlow
        · calc m * 2 ^ (52 - m.log2) ≤ 2 ^ (m.log2 + 1) * 2 ^ (52 - m.log2) := Nat.mul_le_mul_right _ hhigh.le
            _ = 2 ^ 53 := by rw [← pow_add]; congr 1; omega
      · exact ⟨0, by omega, by omega, by omega⟩
    refine ⟨(1074 - j) * 2 ^ 52 + m * 2 ^ j, by rw [infMag]; omega, ?_⟩
    have hone : ulp * (2 ^ j * 2 ^ (1074 - j)) = 1 := by
      rw [← pow_add, ulp_mul_two_pow, show ((j + (1074 - j) : ℕ) : ℤ) - 1074 = 0 by omega, zpow_zero]
    rw [ulps_place hle (.inr hge), ← mul_one (m : ℚ), ← hone]
    push_cast
    ring

/-- A value that is some pattern's own is rounded to itself. -/
theorem RoundsTo.rat_eq {w v : Word} {q : ℚ} (h : RoundsTo w q) (hv : rat v = some q)
    (hq : |q| < 2 ^ 1024 - 2 ^ 970) : rat w = some q := by
  obtain ⟨-, h⟩ := h
  rw [if_neg (not_le.mpr hq)] at h
  obtain ⟨r, hr, hnear⟩ := h
  have hdist : |r - q| ≤ |q - q| := (hnear v q hv).1
  rw [sub_self, abs_zero, abs_nonpos_iff, sub_eq_zero] at hdist
  rw [hr, hdist]

/-- `i2f` is exact up to `2^53`. -/
theorem rat_i2f {n : ℤ} (h : n.natAbs ≤ 2 ^ 53) : rat (i2f n) = some (n : ℚ) := by
  obtain ⟨M, hM, hv⟩ := exists_ulps_eq h
  have hround : RoundsTo (i2f n) n := by
    have := round_int_roundsTo n 0
    rwa [zpow_zero, mul_one] at this
  have hrat : rat (pattern (decide (n < 0)) M) = some (n : ℚ) := by
    rw [rat_pattern hM, mul_assoc, hv, sgn_mul_natAbs]
  refine hround.rat_eq hrat ?_
  have habs : |(n : ℚ)| ≤ 2 ^ 53 := by
    rw [← Int.cast_abs, Int.abs_eq_natAbs]; exact_mod_cast h
  have hone : (1 : ℚ) ≤ 2 ^ 970 := one_le_pow₀ one_le_two
  rw [show (1024 : ℕ) = 54 + 970 from rfl, pow_add]
  generalize (2 : ℚ) ^ 970 = g at *
  linarith

/-- Settles O35: each operation hands `round` the exact result, or digits of it that round alike, and `round` rounds what
it is given to nearest, ties to even. -/
theorem arithmeticRoundsToNearestEven : Obligations.ArithmeticRoundsToNearestEven := by
  refine ⟨fun x y r q hx hy => ?_, fun x y h => ?_, fun n => rat_i2f⟩
  · obtain ⟨hadd, hadd0⟩ := fadd_finite hx hy
    obtain ⟨hsub, hsub0⟩ := fadd_finite hx (rat_fneg hy)
    obtain ⟨hmul, hmul0⟩ := fmul_finite hx hy
    rw [← sub_eq_add_neg] at hsub hsub0
    rw [signBit_fneg] at hsub0
    exact ⟨hadd, hsub, hmul, fun hq => (fdiv_finite hx hy hq).1, hadd0, hsub0, hmul0,
      fun hr hq => (fdiv_finite hx hy hq).2 hr⟩
  · have hquiet : isNaN quietNaN = true := by decide
    obtain ⟨hadd, hmul, hdiv⟩ := operations_nan h
    obtain ⟨hsub, -, -⟩ := operations_nan (y := fneg y) (h.imp_right (isNaN_fneg y).trans)
    rw [fsub, hadd, hsub, hmul, hdiv]
    exact ⟨hquiet, hquiet, hquiet, hquiet⟩

end Sys2Proof.Machine.F64

namespace Sys2Proof.Machine

/-! ## What every step of a command leaves alone -/

/-- Everything around the acting port is the same: the surroundings of the ports, and the other ports. -/
def State.SameAround (s t : State) : Prop := s.SameSurroundings t ∧ s.SameOtherPorts t

namespace State.SameAround

theorem refl (s : State) : s.SameAround s := ⟨⟨rfl, rfl, rfl, rfl, rfl, rfl⟩, rfl, fun _ _ => rfl⟩

theorem trans {s t u : State} (h : s.SameAround t) (h' : t.SameAround u) : s.SameAround u := by
  obtain ⟨⟨hcfg, hplat, hact, hsched, hch, hreads⟩, hlen, hport⟩ := h
  obtain ⟨⟨hcfg', hplat', hact', hsched', hch', hreads'⟩, hlen', hport'⟩ := h'
  exact ⟨⟨hcfg'.trans hcfg, hplat'.trans hplat, hact'.trans hact, hsched'.trans hsched, hch'.trans hch,
    hreads'.trans hreads⟩, hlen'.trans hlen, fun p hp => (hport' p (hact ▸ hp)).trans (hport p hp)⟩

theorem cfg {s t : State} (h : s.SameAround t) : t.cfg = s.cfg := h.1.1
theorem platform {s t : State} (h : s.SameAround t) : t.platform = s.platform := h.1.2.1
theorem active {s t : State} (h : s.SameAround t) : t.active = s.active := h.1.2.2.1
theorem length {s t : State} (h : s.SameAround t) : t.ports.length = s.ports.length := h.2.1
theorem port {s t : State} (h : s.SameAround t) {p : Nat} (hp : p ≠ s.active) : t.port p = s.port p := h.2.2 p hp

/-- Replacing the acting port, the lock and the memory leaves everything around that port alone. -/
theorem setMe (s : State) (q : Port) (k : Lock) (m : List Host.Cell) :
    s.SameAround { s.setMe q with lock := k, mem := m } :=
  ⟨⟨rfl, rfl, rfl, rfl, rfl, rfl⟩, by simp, fun p hp => State.port_setPort_other s _ p q hp⟩

theorem withGenerator (s : State) (d : Dither) (b : Bool) : s.SameAround (s.withGenerator d b) := by
  cases s; exact ⟨⟨rfl, rfl, rfl, rfl, rfl, rfl⟩, rfl, fun _ _ => rfl⟩

theorem raiseFatal (c : FatalCode) (info : Word) (s : State) : s.SameAround (raiseFatal c info s) := by
  rcases raiseFatal_cases c info s with ⟨-, e⟩ | ⟨-, e⟩ <;> rw [e]
  · exact refl s
  · exact ⟨⟨rfl, rfl, rfl, rfl, rfl, rfl⟩, rfl, fun _ _ => rfl⟩

theorem diag (k : Curve) (w : Word) (s : State) : s.SameAround (diag k w s) :=
  ⟨⟨rfl, rfl, rfl, rfl, rfl, rfl⟩, rfl, fun _ _ => rfl⟩

theorem accept (i : Instr) (s : State) : s.SameAround (accept i s) := setMe s _ _ _
theorem complete (s : State) : s.SameAround (complete s) := setMe s _ _ _
theorem completeLocked (s : State) : s.SameAround (completeLocked s) := setMe s _ _ _
theorem writeRes (v : Word) (s : State) : s.SameAround (writeRes v s) := setMe s _ _ _
theorem synTokens (s : State) : s.SameAround (synTokens s) := setMe s _ _ _
theorem releaseSample (s : State) : s.SameAround (releaseSample s) := setMe s _ _ _
theorem seedGenerator (s : State) : s.SameAround (seedGenerator s) := withGenerator s _ _
theorem drawToRes (s : State) : s.SameAround (drawToRes s) := (writeRes _ s).trans (withGenerator _ _ _)
theorem beginSample (s : State) : s.SameAround (beginSample s) := (setMe s _ _ _).trans (withGenerator _ _ _)

theorem acquire (i : Instr) (load : Port → Port) (s : State) : s.SameAround (acquire i load s) := by
  rcases acquire_cases i load s with ⟨-, e⟩ | ⟨-, -, -, e⟩ | ⟨-, -, e⟩ <;> rw [e]
  · exact refl s
  · exact trans (t := { s with lock := .held s.active }) ⟨⟨rfl, rfl, rfl, rfl, rfl, rfl⟩, rfl, fun _ _ => rfl⟩
      (raiseFatal _ _ _)
  · exact setMe s _ _ _

theorem writeNextByte (s : State) : s.SameAround (writeNextByte s) := by
  rcases writeNextByte_cases s with ⟨-, e⟩ | ⟨a, b, rest, -, e⟩ <;> rw [e]
  · exact refl s
  · exact setMe s _ _ _

theorem endSample (row : Row) (s : State) : s.SameAround (endSample row s) := by
  rcases endSample_cases row s with ⟨-, e⟩ | ⟨-, e⟩ <;> rw [e]
  · exact setMe s _ _ _
  · exact refl s

theorem memWrite {addr : Word} {bytes : List Byte} {s t : State} (h : memWrite addr bytes s = .next t) :
    s.SameAround t := by
  rcases memWrite_cases addr bytes s with ⟨a, -, e⟩ | ⟨-, e⟩ <;> (rw [e] at h; cases h)
  exact (setMe s _ _ _).trans (writeNextByte _)

theorem volumeRun (k : Curve) (r : CurveResult) (s : State) : s.SameAround (volumeRun k r s) := by
  rcases volumeRun_cases k r s with ⟨res, -, e⟩ | ⟨res, -, e⟩ | ⟨i, -, e⟩ <;> rw [e]
  · exact (writeRes _ s).trans (complete _)
  · exact ((writeRes _ s).trans (diag _ _ _)).trans (complete _)
  · exact raiseFatal _ _ s

end State.SameAround

/-- A step of a command changes nothing around the acting port. -/
theorem ExecStep.sameAround {i : Instr} {s t : State} (h : ExecStep s i t) : s.SameAround t := by
  cases h with
  | stays => exact .refl s
  | rejects => exact .raiseFatal _ _ s
  | accepts => exact .accept i s
  | acceptsStream => exact State.SameAround.trans (.setMe s _ s.lock s.mem) (.accept i _)
  | acquires => exact .acquire i _ s
  | returnsToken => exact (State.SameAround.synTokens s).trans (.complete _)
  | seeds => exact (State.SameAround.seedGenerator s).trans (.completeLocked _)
  | draws => exact (State.SameAround.drawToRes s).trans (.completeLocked _)
  | scales => exact .volumeRun _ _ s
  | answers => exact (State.SameAround.writeRes _ s).trans (.complete _)
  | synWrites => exact (State.SameAround.writeNextByte s).trans (.endSample _ _)
  | releases => exact .releaseSample s
  | synBegins f dth row u hs hout hrow hu =>
    exact ((State.SameAround.beginSample s).trans (.memWrite hu)).trans (.endSample row u)
  | synDone => exact (State.SameAround.synTokens s).trans (.completeLocked _)
  | encWrites => exact .writeNextByte s
  | encDone => exact State.SameAround.trans (.setMe s _ s.lock s.mem) (.complete _)
  | encBegins f row _ hs hout hrow hu => exact State.SameAround.trans (.setMe s _ s.lock s.mem) (.memWrite hu)

/-! ## What a step of a command does to `SEEDED`, and to the fault and diagnostic registers -/

@[simp] theorem raiseFatal_seeded (c : FatalCode) (info : Word) (s : State) :
    (raiseFatal c info s).seeded = s.seeded := by
  rcases raiseFatal_cases c info s with ⟨-, e⟩ | ⟨-, e⟩ <;> rw [e]

@[simp] theorem raiseFatal_lock (c : FatalCode) (info : Word) (s : State) : (raiseFatal c info s).lock = s.lock := by
  rcases raiseFatal_cases c info s with ⟨-, e⟩ | ⟨-, e⟩ <;> rw [e]

@[simp] theorem raiseFatal_ports (c : FatalCode) (info : Word) (s : State) :
    (raiseFatal c info s).ports = s.ports := by
  rcases raiseFatal_cases c info s with ⟨-, e⟩ | ⟨-, e⟩ <;> rw [e]

@[simp] theorem raiseFatal_diagCnt (c : FatalCode) (info : Word) (s : State) :
    (raiseFatal c info s).diagCnt = s.diagCnt := by
  rcases raiseFatal_cases c info s with ⟨-, e⟩ | ⟨-, e⟩ <;> rw [e]

@[simp] theorem raiseFatal_diagSrc (c : FatalCode) (info : Word) (s : State) :
    (raiseFatal c info s).diagSrc = s.diagSrc := by
  rcases raiseFatal_cases c info s with ⟨-, e⟩ | ⟨-, e⟩ <;> rw [e]

@[simp] theorem acquire_seeded (i : Instr) (load : Port → Port) (s : State) :
    (acquire i load s).seeded = s.seeded := by
  rcases acquire_cases i load s with ⟨-, e⟩ | ⟨-, -, -, e⟩ | ⟨-, -, e⟩ <;> rw [e] <;> simp

@[simp] theorem acquire_diagCnt (i : Instr) (load : Port → Port) (s : State) :
    (acquire i load s).diagCnt = s.diagCnt := by
  rcases acquire_cases i load s with ⟨-, e⟩ | ⟨-, -, -, e⟩ | ⟨-, -, e⟩ <;> rw [e] <;> simp

@[simp] theorem acquire_diagSrc (i : Instr) (load : Port → Port) (s : State) :
    (acquire i load s).diagSrc = s.diagSrc := by
  rcases acquire_cases i load s with ⟨-, e⟩ | ⟨-, -, -, e⟩ | ⟨-, -, e⟩ <;> rw [e] <;> simp

@[simp] theorem volumeRun_seeded (k : Curve) (r : CurveResult) (s : State) :
    (volumeRun k r s).seeded = s.seeded := by
  rcases volumeRun_cases k r s with ⟨res, -, e⟩ | ⟨res, -, e⟩ | ⟨i, -, e⟩ <;> rw [e] <;> simp

/-- A run step of VC leaves the diagnostic registers alone, or counts one diagnostic of the acting port (R177). -/
theorem volumeRun_diag (k : Curve) (r : CurveResult) (s : State) :
    ((volumeRun k r s).diagCnt = s.diagCnt ∧ (volumeRun k r s).diagSrc = s.diagSrc) ∨
      ((volumeRun k r s).diagCnt = s.diagCnt + 1 ∧ (volumeRun k r s).diagSrc = diagSourceWord k s.active) := by
  rcases volumeRun_cases k r s with ⟨res, -, e⟩ | ⟨res, -, e⟩ | ⟨i, -, e⟩ <;> rw [e] <;> simp

/-- What the step that begins a `MemWrite` leaves of the registers every port shares. -/
theorem memWrite_shared {addr : Word} {bytes : List Byte} {s t : State} (h : memWrite addr bytes s = .next t) :
    t.seeded = s.seeded ∧ t.lock = s.lock ∧ t.finfo = s.finfo ∧ t.diagCnt = s.diagCnt ∧ t.diagSrc = s.diagSrc := by
  rcases memWrite_cases addr bytes s with ⟨a, -, e⟩ | ⟨-, e⟩ <;> (rw [e] at h; cases h)
  simp

/-- No step of a command clears `SEEDED` (R12). -/
theorem ExecStep.seeded {i : Instr} {s t : State} (h : ExecStep s i t) (hs : s.seeded = true) : t.seeded = true := by
  cases h with
  | seeds => exact (completeLocked_seeded _).trans (seedGenerator_seeded s)
  | draws => exact (completeLocked_seeded _).trans ((drawToRes_seeded s).trans hs)
  | synBegins f dth row u _ _ _ hu => simpa [(memWrite_shared hu).1] using hs
  | encBegins f row _ _ _ _ hu => exact (memWrite_shared hu).1.trans hs
  | _ => simpa using hs

/-- A step of a command leaves the diagnostic registers alone, or counts one diagnostic of the acting port (R177). -/
theorem ExecStep.diag_cases {i : Instr} {s t : State} (h : ExecStep s i t) :
    (t.diagCnt = s.diagCnt ∧ t.diagSrc = s.diagSrc) ∨
      (s.live = true ∧ t.diagCnt = s.diagCnt + 1 ∧ ∃ k, t.diagSrc = diagSourceWord k s.active) := by
  cases h with
  | seeds =>
    exact .inl ⟨(completeLocked_diagCnt _).trans (seedGenerator_diagCnt s),
      (completeLocked_diagSrc _).trans (seedGenerator_diagSrc s)⟩
  | draws =>
    exact .inl ⟨(completeLocked_diagCnt _).trans (drawToRes_diagCnt s),
      (completeLocked_diagSrc _).trans (drawToRes_diagSrc s)⟩
  | scales k hs =>
    rcases volumeRun_diag k (curve k s.me.vol s.me.maxInt s.me.minInt) s with h | ⟨hc, hd⟩
    · exact .inl h
    · exact .inr ⟨hs.1, hc, k, hd⟩
  | synBegins f dth row u _ _ _ hu =>
    obtain ⟨-, -, -, hc, hd⟩ := memWrite_shared hu
    exact .inl ⟨by simpa using hc, by simpa using hd⟩
  | encBegins f row _ _ _ _ hu =>
    obtain ⟨-, -, -, hc, hd⟩ := memWrite_shared hu
    exact .inl ⟨hc, hd⟩
  | _ => exact .inl (by simp)

end Sys2Proof.Machine

namespace Sys2Proof.Machine

/-! ## What a step of the machine can be -/

/-- Two states differ at most in memory, in whose turn it is, in what the hosts have still to do and in what their reads
returned: the ports' registers and sequencers, and every other register of the block, are the same. -/
structure State.SameBlock (s t : State) : Prop where
  cfg : t.cfg = s.cfg
  seeded : t.seeded = s.seeded
  lock : t.lock = s.lock
  fault : t.fault = s.fault
  finfo : t.finfo = s.finfo
  diagCnt : t.diagCnt = s.diagCnt
  diagSrc : t.diagSrc = s.diagSrc
  platform : t.platform = s.platform
  length : t.ports.length = s.ports.length
  port : ∀ p, { t.port p with prog := [] } = { s.port p with prog := [] }

namespace State.SameBlock

theorem refl (s : State) : s.SameBlock s := ⟨rfl, rfl, rfl, rfl, rfl, rfl, rfl, rfl, rfl, fun _ => rfl⟩

theorem trans {s t u : State} (h : s.SameBlock t) (h' : t.SameBlock u) : s.SameBlock u :=
  ⟨h'.cfg.trans h.cfg, h'.seeded.trans h.seeded, h'.lock.trans h.lock, h'.fault.trans h.fault, h'.finfo.trans h.finfo,
    h'.diagCnt.trans h.diagCnt, h'.diagSrc.trans h.diagSrc, h'.platform.trans h.platform, h'.length.trans h.length,
    fun p => (h'.port p).trans (h.port p)⟩

theorem halted {s t : State} (h : s.SameBlock t) : t.halted = s.halted := by
  simp [State.halted, h.fault]

/-- What does not look at what a port's host has still to do is the same of a port in both states. -/
theorem of_port {α : Type} {s t : State} (h : s.SameBlock t) (f : Port → α)
    (hf : ∀ q : Port, f { q with prog := [] } = f q) (p : Nat) : f (t.port p) = f (s.port p) :=
  (hf _).symm.trans ((congrArg f (h.port p)).trans (hf _))

theorem seq {s t : State} (h : s.SameBlock t) (p : Nat) : (t.port p).seq = (s.port p).seq :=
  h.of_port Port.seq (fun _ => rfl) p

theorem actingAs (s : State) (p : Nat) : s.SameBlock (s.actingAs p) :=
  ⟨rfl, rfl, rfl, rfl, rfl, rfl, rfl, rfl, rfl, fun _ => rfl⟩

theorem withProg (s : State) (p : Nat) (l : List HostAction) : s.SameBlock (s.withProg p l) := by
  refine ⟨rfl, rfl, rfl, rfl, rfl, rfl, rfl, rfl, by simp, fun r => ?_⟩
  by_cases hr : r = p
  · subst hr
    by_cases hlt : r < s.ports.length
    · rw [State.withProg, State.port_setPort_same s r _ hlt]
    · simp [State.withProg, State.setPort, State.port, List.getD_eq_getElem?_getD, Nat.le_of_not_lt hlt]
  · rw [State.withProg, State.port_setPort_other s p r _ hr]

end State.SameBlock

/-- Everything an agent's step can make of a state. But for what `SameBlock` does not compare, it is nothing, a fault of
the register interface, an operand register written, or the step of a command: the one that an idle port accepts, or the
one that a busy port runs. -/
inductive AgentStep (s t : State) : Prop
  | same (h : s.SameBlock t)
  | raises (u : State) (h : s.SameBlock u) (hp : u.active < u.ports.length) (hh : u.halted = false)
      (c : FatalCode) (info : Word) (ht : t = raiseFatal c info u)
  | writes (u : State) (h : s.SameBlock u) (hu : u.Idle) (k : Slot) (v : Word)
      (ht : t = u.setMe (u.me.writeSlot k v))
  | runs (u : State) (h : s.SameBlock u) (i : Instr) (hop : u.me.seq.phase ≠ .idle → u.me.seq.op = some i)
      (ht : exec i u = .next t)

/-- Only what `SameBlock` compares counts of the state before a step. -/
theorem AgentStep.of_sameBlock {r s t : State} (h : r.SameBlock s) (hs : AgentStep s t) : AgentStep r t := by
  cases hs with
  | same h' => exact .same (h.trans h')
  | raises u h' hp hh c info ht => exact .raises u (h.trans h') hp hh c info ht
  | writes u h' hu k v ht => exact .writes u (h.trans h') hu k v ht
  | runs u h' i hop ht => exact .runs u (h.trans h') i hop ht

/-- A host's register write, as a step. -/
theorem hostWrite_agentStep {p : Nat} {k : Slot} {v : Word} {s t : State} (hp : p < s.ports.length)
    (h : hostWrite p k v s = .next t) : AgentStep s t := by
  have hact := State.SameBlock.actingAs s p
  rcases hostWrite_cases p k v s with
    ⟨-, e⟩ | ⟨hh, -, e⟩ | ⟨hh, -, -, -, e⟩ | ⟨i, -, hb, -, -, e⟩ | ⟨hh, hb, -, e⟩ <;> rw [e] at h
  · cases h; exact .same hact
  · cases h; exact .raises _ hact hp hh _ _ rfl
  · cases h; exact .raises _ hact hp hh _ _ rfl
  · refine .runs _ hact i (fun hne => ?_) h
    simp [State.busy] at hb
    exact absurd hb hne
  · cases h
    exact .writes _ hact ⟨by simp [State.live, hh, hp], by simpa [State.busy] using hb⟩ k v rfl

/-- A host's action, as a step. -/
theorem hostAct_agentStep {p : Nat} {s t : State} (h : hostAct p s = .next t) : AgentStep s t := by
  rcases hostAct_cases p s with ⟨-, e⟩ | ⟨k, v, rest, hprog, e⟩ | ⟨k, rest, -, e⟩ | ⟨rest, -, e⟩ |
    ⟨a, b, rest, -, e⟩ <;> rw [e] at h
  · cases h; exact .same (.refl s)
  · exact (hostWrite_agentStep (by simpa using lt_length_of_prog hprog) h).of_sameBlock (.withProg s p rest)
  · cases h
    exact .same ((State.SameBlock.withProg s p rest).trans
      ⟨rfl, rfl, rfl, rfl, rfl, rfl, rfl, rfl, rfl, fun _ => rfl⟩)
  · cases h
    split
    · exact .same (.refl s)
    · exact .same (.withProg s p rest)
  · rcases hostStore_cases a b (s.withProg p rest) with ⟨-, e'⟩ | ⟨-, e'⟩ <;> (rw [e'] at h; cases h)
    exact .same ((State.SameBlock.withProg s p rest).trans
      ⟨rfl, rfl, rfl, rfl, rfl, rfl, rfl, rfl, rfl, fun _ => rfl⟩)

/-- A sequencer's step, as a step. -/
theorem sequencerAct_agentStep {p : Nat} {s t : State} (h : sequencerAct p s = .next t) : AgentStep s t := by
  rcases sequencerAct_cases p s with ⟨e, -⟩ | ⟨i, -, hop, e⟩ <;> rw [e] at h
  · cases h; exact .same (.refl s)
  · exact .runs _ (.actingAs s p) i (fun _ => hop) h

/-- The step of an agent. -/
theorem agentAct_agentStep {g : Agent} {s t : State} (h : agentAct g s = .next t) : AgentStep s t := by
  rcases agentAct_cases g s with ⟨e, -⟩ | ⟨e, -, -⟩ <;> rw [e] at h
  · cases g with
    | host p => exact hostAct_agentStep h
    | sequencer p => exact sequencerAct_agentStep h
  · cases h; exact .same (.refl s)

/-- The machine's step is that of an agent, from a state that differs in the schedule or in the count of choices, or
nothing. -/
theorem step_of_agentAct {s t : State} (h : step s = .next t) :
    t = s ∨ ∃ g u, s.SameBlock u ∧ u.ports = s.ports ∧ agentAct g u = .next t := by
  rcases step_cases s with ⟨g, rest, -, e⟩ | ⟨-, -, e⟩ | ⟨g, -, n, -, e⟩ <;> rw [e] at h
  · exact .inr ⟨g, { s with sched := rest }, ⟨rfl, rfl, rfl, rfl, rfl, rfl, rfl, rfl, rfl, fun _ => rfl⟩, rfl, h⟩
  · cases h; exact .inl rfl
  · exact .inr ⟨g, { s with choices := n }, ⟨rfl, rfl, rfl, rfl, rfl, rfl, rfl, rfl, rfl, fun _ => rfl⟩, rfl, h⟩

/-- The machine's step, as the step of an agent. -/
theorem step_agentStep {s t : State} (h : step s = .next t) : AgentStep s t := by
  rcases step_of_agentAct h with rfl | ⟨g, u, hu, -, hg⟩
  · exact .same (.refl _)
  · exact (agentAct_agentStep hg).of_sameBlock hu

/-- No step of the machine halts a block in which some port is between two byte writes of one sample (R176). -/
theorem step_keeps_samples_whole {s t : State} (h : step s = .next t) (hs : s.halted = false)
    (ht : t.halted = true) : s.midSample = false := by
  rcases step_of_agentAct h with rfl | ⟨g, u, hu, hports, hg⟩
  · rw [hs] at ht; cases ht
  · have hm := agentAct_keeps_samples_whole hg (hu.halted.trans hs) ht
    rwa [State.midSample, hports] at hm

/-- Settles O57: by what an agent's step can be; a command's step changes nothing around its port. -/
theorem stepKeepsBuildParameters : Obligations.StepKeepsBuildParameters := by
  intro s t hstep
  cases step_agentStep hstep with
  | same h => exact ⟨h.cfg, h.length, h.platform, fun hs => h.seeded.trans hs, .inl h.diagCnt⟩
  | raises u h hp hh c info ht =>
    have ha := State.SameAround.raiseFatal c info u
    subst ht
    exact ⟨ha.cfg.trans h.cfg, ha.length.trans h.length, ha.platform.trans h.platform,
      fun hs => (raiseFatal_seeded c info u).trans (h.seeded.trans hs),
      .inl ((raiseFatal_diagCnt c info u).trans h.diagCnt)⟩
  | writes u h hu k v ht =>
    have ha := State.SameAround.setMe u (u.me.writeSlot k v) u.lock u.mem
    subst ht
    exact ⟨h.cfg, ha.length.trans h.length, h.platform, fun hs => h.seeded.trans hs, .inl h.diagCnt⟩
  | runs u h i hop ht =>
    have he := exec_step ht
    have ha := he.sameAround
    refine ⟨ha.cfg.trans h.cfg, ha.length.trans h.length, ha.platform.trans h.platform,
      fun hs => he.seeded (h.seeded.trans hs), ?_⟩
    rcases he.diag_cases with ⟨hc, -⟩ | ⟨-, hc, -⟩
    · exact .inl (hc.trans h.diagCnt)
    · exact .inr (hc.trans (congrArg (· + 1) h.diagCnt))

end Sys2Proof.Machine

namespace Sys2Proof

@[simp] theorem Instr.sub_syn (f : Format) (dth : Bool) : (Instr.syn f dth).fields.sub = f.code := by cases f <;> rfl
@[simp] theorem Instr.sub_enc (f : Format) : (Instr.enc f).fields.sub = f.code := by cases f <;> rfl

end Sys2Proof
namespace Sys2Proof.Machine

/-! ## The register window -/

/-- The bits of a word put together as `STATUS` is (R25). -/
theorem getLsbD_statusFields (halted seeded held wait busy : Bool) (j : Nat) :
    ((BitVec.ofBool halted ++ BitVec.ofBool seeded ++ 0#5 ++ BitVec.ofBool held ++ BitVec.ofBool wait
      ++ BitVec.ofBool busy).zeroExtend 64 : Word).getLsbD j =
      (decide (j = 0) && busy || decide (j = 1) && wait || decide (j = 2) && held || decide (j = 8) && seeded
        || decide (j = 9) && halted) := by
  rcases Nat.lt_or_ge j 10 with hj | hj
  · simp only [BitVec.zeroExtend, BitVec.getLsbD_setWidth, BitVec.getLsbD_append, BitVec.getLsbD_ofBool,
      BitVec.getLsbD_zero]
    interval_cases j <;> simp
  · rw [BitVec.zeroExtend, BitVec.getLsbD_setWidth, BitVec.getLsbD_of_ge _ j hj]
    simp [show j ≠ 0 by omega, show j ≠ 1 by omega, show j ≠ 2 by omega, show j ≠ 8 by omega,
      show j ≠ 9 by omega]

/-- Settles O50: bit by bit, each status bit being one of the model's flags. -/
theorem statusBitsReadAsDefined : Obligations.StatusBitsReadAsDefined := by
  intro s p j
  have hbusy : s.busy p = decide ((s.port p).seq.phase ≠ .idle) := by
    simp [State.busy, bne, Bool.beq_eq_decide_eq]
  have hwait : s.lockWait p = decide ((s.port p).seq.phase = .waitLock) := by
    simp [State.lockWait, Bool.beq_eq_decide_eq]
  have hheld : s.lockHeld p = decide (s.lock = .held p) := by simp [State.lockHeld, Bool.beq_eq_decide_eq]
  have hhalted : s.halted = decide (s.fault ≠ 0) := by simp [State.halted, bne, Bool.beq_eq_decide_eq]
  rw [statusWord, getLsbD_statusFields, hbusy, hwait, hheld, hhalted]
  simp only [Bool.decide_and]

/-- `STATUS` of an idle port that does not hold the lock, in a block unseeded and without a fault, is 0. -/
theorem statusWord_eq_zero {s : State} {p : Nat} (hp : (s.port p).seq.phase = .idle) (hl : s.lock ≠ .held p)
    (hs : s.seeded = false) (hf : s.fault = 0) : statusWord s p = 0 := by
  refine BitVec.eq_of_getLsbD_eq fun j _ => ?_
  rw [statusBitsReadAsDefined]
  simp [hp, hl, hs, hf]

/-! What a register write does at each of its checks (R36, R175). -/

theorem hostWrite_halted {s : State} {p : Nat} {k : Slot} (v : Word) (hh : s.halted = true) :
    hostWrite p k v s = .next { s with active := p } := by
  simp [hostWrite, hh]
  rfl

theorem hostWrite_busy {s : State} {p : Nat} {k : Slot} (v : Word) (hh : s.halted = false) (hb : s.busy p = true) :
    hostWrite p k v s = .next (raiseFatal .busyViolation (Slot.offset k) (s.actingAs p)) := by
  have hb' : (s.actingAs p).busy p = true := hb
  simp [hostWrite, hh, hb']

theorem hostWrite_illegal {s : State} {p : Nat} {v : Word} (hh : s.halted = false) (hb : s.busy p = false)
    (hd : ∀ i, decode v ≠ .ok i) : hostWrite p 0 v s = .next (raiseFatal .illegalCmd v (s.actingAs p)) := by
  have hb' : (s.actingAs p).busy p = false := hb
  cases he : decode v with
  | ok i => exact absurd he (hd i)
  | error e => simp [hostWrite, hh, hb', he]

theorem hostWrite_issue {s : State} {p : Nat} {v : Word} {i : Instr} (hh : s.halted = false) (hb : s.busy p = false)
    (hd : decode v = .ok i) : hostWrite p 0 v s = exec i (s.actingAs p) := by
  have hb' : (s.actingAs p).busy p = false := hb
  simp [hostWrite, hh, hb', hd]

/-- A write to any register but `CMD` of an idle port stores what `writeSlot` says. -/
theorem hostWrite_operand {s : State} {p : Nat} {k : Slot} (v : Word) (hh : s.halted = false) (hb : s.busy p = false)
    (hk : k ≠ 0) :
    hostWrite p k v s = .next { s with active := p, ports := s.ports.set p ((s.port p).writeSlot k v) } := by
  have hb' : (s.actingAs p).busy p = false := hb
  have hk' : ¬ k = 0#5 := hk
  simp [hostWrite, hh, hb', hk']
  rfl

/-! A write to an operand register is no write to `CMD` and leaves the sequencer alone. -/

@[simp] theorem Port.writeSlot_cmd (q : Port) (k : Slot) (v : Word) : (q.writeSlot k v).cmd = q.cmd := by
  unfold Port.writeSlot; split <;> rfl

@[simp] theorem Port.writeSlot_seq (q : Port) (k : Slot) (v : Word) : (q.writeSlot k v).seq = q.seq := by
  unfold Port.writeSlot; split <;> rfl

/-- A read-only or reserved offset ignores a write (R35). -/
theorem Port.writeSlot_ignored (q : Port) {k : Slot} (v : Word) (hk : k.toNat = 1 ∨ 11 ≤ k.toNat) :
    q.writeSlot k v = q := by
  unfold Port.writeSlot
  split <;> first | rfl | omega

/-- Replacing a port by itself changes nothing. -/
theorem set_port_self (s : State) (p : Nat) : s.ports.set p (s.port p) = s.ports := by
  by_cases hp : p < s.ports.length
  · rw [State.port, List.getD_eq_getElem _ _ hp, List.set_getElem_self]
  · rw [List.set_eq_of_length_le (Nat.le_of_not_lt hp)]

/-- Each operand register takes the write of its own offset and no other (R14, R34). -/
theorem Port.writeSlot_eq (q : Port) (k : Slot) (v : Word) : q.writeSlot k v =
    { q with
      buf := if k.toNat = 2 then v else q.buf
      nfr := if k.toNat = 3 then v.setWidth 32 else q.nfr
      tok := if k.toNat = 4 then v else q.tok
      seed := if k.toNat = 5 then v else q.seed
      vol := if k.toNat = 6 then v else q.vol
      maxdb := if k.toNat = 7 then v.setWidth 32 else q.maxdb
      mindb := if k.toNat = 8 then v.setWidth 32 else q.mindb
      res := if k.toNat = 9 then v else q.res
      hs := if k.toNat = 10 then v else q.hs } := by
  unfold Port.writeSlot
  cases q
  split <;> grind

/-- `STATUS` is not written by a host: it reads the sequencer of its port and the registers every port shares. -/
theorem statusWord_congr {s t : State} {p : Nat} (hseq : (t.port p).seq = (s.port p).seq) (hlock : t.lock = s.lock)
    (hseeded : t.seeded = s.seeded) (hfault : t.fault = s.fault) : statusWord t p = statusWord s p := by
  simp only [statusWord, State.busy, State.lockWait, State.lockHeld, State.halted, hseq, hlock, hseeded, hfault]

/-- What each offset of a window reads after a write to an operand register of its port: the register written reads what
it keeps of the value, every other as it did (R14, R34). -/
theorem regRead_writeSlot {s t : State} {p : Nat} {k : Slot} {v : Word} (hp : p < s.ports.length)
    (ht : t = { s with active := p, ports := s.ports.set p ((s.port p).writeSlot k v) })
    (hk : 2 ≤ k.toNat ∧ k.toNat ≤ 10) (j : Slot) :
    regRead t p j =
      if k.toNat = j.toNat then
        if k.toNat = 3 then (v.setWidth 32).setWidth 64
        else if k.toNat = 7 ∨ k.toNat = 8 then (v.setWidth 32).signExtend 64 else v
      else regRead s p j := by
  have hport : t.port p = (s.port p).writeSlot k v := by
    subst ht; exact State.port_setPort_same s p _ hp
  have hstatus : statusWord t p = statusWord s p := by
    subst ht; exact statusWord_congr (by rw [hport, Port.writeSlot_seq]) rfl rfl rfl
  have hshared : t.fault = s.fault ∧ t.finfo = s.finfo ∧ t.diagCnt = s.diagCnt ∧ t.diagVol = s.diagVol ∧
      t.diagSrc = s.diagSrc := by
    subst ht; exact ⟨rfl, rfl, rfl, rfl, rfl⟩
  simp only [regRead, hport, hstatus, hshared, Port.writeSlot_eq]
  by_cases hj : k.toNat = j.toNat
  · rw [← hj]
    obtain ⟨h2, h10⟩ := hk
    generalize k.toNat = n at h2 h10
    interval_cases n <;> simp
  · rw [if_neg hj]
    split <;> simp_all

/-- The window of another port reads as it did: the write leaves that port and the shared registers alone. -/
theorem regRead_setPort_other {s t : State} {p q : Nat} {r : Port}
    (ht : t = { s with active := p, ports := s.ports.set p r }) (hq : q ≠ p) (j : Slot) :
    regRead t q j = regRead s q j := by
  have hport : t.port q = s.port q := by
    subst ht; exact State.port_setPort_other s p q r hq
  have hstatus : statusWord t q = statusWord s q := by
    subst ht; exact statusWord_congr (by rw [hport]) rfl rfl rfl
  have hshared : t.fault = s.fault ∧ t.finfo = s.finfo ∧ t.diagCnt = s.diagCnt ∧ t.diagVol = s.diagVol ∧
      t.diagSrc = s.diagSrc := by
    subst ht; exact ⟨rfl, rfl, rfl, rfl, rfl⟩
  simp only [regRead, hport, hstatus, hshared]

/-- Settles O51: each register is read where R34 places it, and takes the write of its own offset alone. -/
theorem operandRegistersReadBack : Obligations.OperandRegistersReadBack := by
  refine ⟨fun s p => ⟨rfl, rfl, rfl, rfl, rfl, rfl, rfl, rfl, rfl, rfl, rfl, rfl, rfl, rfl, rfl, rfl⟩,
    fun s p v hh hb => ?_, fun s p k v hh hb hp h2 h10 => ?_⟩
  · have hwrite (k : Slot) (hk : k ≠ 0) := hostWrite_operand (k := k) v hh hb hk
    exact ⟨hwrite 2 (by decide), hwrite 3 (by decide), hwrite 4 (by decide), hwrite 5 (by decide),
      hwrite 6 (by decide), hwrite 7 (by decide), hwrite 8 (by decide), hwrite 9 (by decide), hwrite 10 (by decide)⟩
  · have hk : k ≠ 0 := by rintro rfl; simp at h2
    refine ⟨_, hostWrite_operand v hh hb hk, ?_, fun q j hqj => ?_⟩
    · rw [regRead_writeSlot hp rfl ⟨h2, h10⟩, if_pos rfl]
    · by_cases hq : q = p
      · subst hq
        have hj : k.toNat ≠ j.toNat := fun h => hqj (by rw [BitVec.eq_of_toNat_eq h])
        rw [regRead_writeSlot hp rfl ⟨h2, h10⟩, if_neg hj]
      · exact regRead_setPort_other rfl hq j

/-- A write to a read-only or reserved offset of an idle port changes nothing, and so does one in a halted block. -/
theorem hostWrite_ignored {s : State} {p : Nat} {k : Slot} (v : Word) (hb : s.busy p = false)
    (hk : k.toNat = 1 ∨ 11 ≤ k.toNat) : hostWrite p k v s = .next { s with active := p } := by
  cases hh : s.halted with
  | true => exact hostWrite_halted v hh
  | false =>
    have hk0 : k ≠ 0 := by rintro rfl; simp at hk
    rw [hostWrite_operand v hh hb hk0, Port.writeSlot_ignored _ v hk, set_port_self]

/-- A reserved offset reads 0 (R35). -/
theorem regRead_reserved (s : State) (p : Nat) {k : Slot} (hk : (11 ≤ k.toNat ∧ k.toNat ≤ 15) ∨ 21 ≤ k.toNat) :
    regRead s p k = 0 := by
  simp only [regRead]
  generalize k.toNat = n at hk
  split <;> first | rfl | (exfalso; omega)

/-- Settles O52: no register stands at a reserved offset, and `writeSlot` has no case for one. -/
theorem reservedOffsetsDoNothing : Obligations.ReservedOffsetsDoNothing :=
  ⟨fun s p _ hk => regRead_reserved s p hk, fun _ _ _ v hb _ hk => hostWrite_ignored v hb hk⟩

/-- A SYN or ENC with a sentinel format raises `FMT_SENTINEL` with the code in its own `SUB` field (R122 to R124). -/
theorem exec_rejected_sub {i : Instr} {s : State} (hi : i.isRejected = true) (hs : s.Idle) :
    exec i s = .next (raiseFatal .fmtSentinel (i.fields.sub.zeroExtend 64) s) := by
  obtain ⟨hl, hp⟩ := hs
  rcases i.family_cases with rfl | rfl | ⟨f, dth, rfl⟩ | ⟨k, rfl⟩ | ⟨f, rfl⟩ | ⟨f, rfl⟩
  · simp [isRejected_init] at hi
  · simp [isRejected_draw] at hi
  · rw [exec_syn, synthesize, (Instr.isRejected_syn f dth).mp hi, Instr.sub_syn]
    exact byPhase_idle hl hp _ _ _
  · simp [isRejected_vc] at hi
  · simp [isRejected_fmtq] at hi
  · rw [exec_enc, encodeSample, (Instr.isRejected_enc f).mp hi, Instr.sub_enc]
    exact byPhase_idle hl hp _ _ _

/-- A fatal fault of a block that is not halted, as the state it leaves (R172). -/
theorem raiseFatal_of_not_halted (c : FatalCode) (info : Word) {s : State} (hh : s.halted = false) :
    raiseFatal c info s = { s with fault := faultWord c s.active, finfo := info } := by
  simp [raiseFatal, hh]

/-- The byte offset of a slot is eight times its number (R34). -/
theorem offset_eq (k : Slot) : Slot.offset k = BitVec.ofNat 64 (8 * k.toNat) := by
  revert k
  decide

/-- Settles O53: one clause for each check of a register write, each ending in the fault it raises. -/
theorem registerWriteChecksInOrder : Obligations.RegisterWriteChecksInOrder := by
  intro s p k v hp
  refine ⟨hostWrite_halted v, fun hh hb => ?_, fun hh hb hk hd => ?_, fun i hh hb hk hd hi => ?_⟩
  · rw [hostWrite_busy v hh hb, raiseFatal_of_not_halted _ _ (s := s.actingAs p) hh, offset_eq]
    rfl
  · subst hk
    rw [hostWrite_illegal hh hb hd, raiseFatal_of_not_halted _ _ (s := s.actingAs p) hh]
    rfl
  · subst hk
    have hidle : (s.actingAs p).Idle := ⟨by simp [State.live, hh, hp], by simpa [State.busy] using hb⟩
    rw [hostWrite_issue hh hb hd, exec_rejected_sub hi hidle, raiseFatal_of_not_halted _ _ (s := s.actingAs p) hh]
    rfl

end Sys2Proof.Machine

namespace Sys2Proof

/-! ## Which commands take the lock, and which write memory -/

@[simp] theorem Instr.isEnc_syn (f : Format) (dth : Bool) : (Instr.syn f dth).isEnc = false := by cases f <;> rfl
@[simp] theorem Instr.isSyn_vc (k : Curve) : (Instr.vc k).isSyn = false := by cases k <;> rfl
@[simp] theorem Instr.isEnc_vc (k : Curve) : (Instr.vc k).isEnc = false := by cases k <;> rfl
@[simp] theorem Instr.isSyn_fmtq (f : Format) : (Instr.fmtq f).isSyn = false := by cases f <;> rfl
@[simp] theorem Instr.isEnc_fmtq (f : Format) : (Instr.fmtq f).isEnc = false := by cases f <;> rfl
@[simp] theorem Instr.isSyn_init : Instr.init.isSyn = false := rfl
@[simp] theorem Instr.isEnc_init : Instr.init.isEnc = false := rfl
@[simp] theorem Instr.isSyn_draw : Instr.draw.isSyn = false := rfl
@[simp] theorem Instr.isEnc_draw : Instr.draw.isEnc = false := rfl

@[simp] theorem Instr.takesLock_init : Instr.init.takesLock = true := by decide
@[simp] theorem Instr.takesLock_draw : Instr.draw.takesLock = true := by decide
@[simp] theorem Instr.takesLock_syn (f : Format) (dth : Bool) : (Instr.syn f dth).takesLock = true := by
  cases f <;> rfl
@[simp] theorem Instr.takesLock_vc (k : Curve) : (Instr.vc k).takesLock = false := by cases k <;> rfl
@[simp] theorem Instr.takesLock_fmtq (f : Format) : (Instr.fmtq f).takesLock = false := by cases f <;> rfl
@[simp] theorem Instr.takesLock_enc (f : Format) : (Instr.enc f).takesLock = false := by cases f <;> rfl

/-- The value a command is issued with fits the low half of `CMD` (R24). -/
theorem commandValue_lt (i : Instr) : (commandValue i).toNat < 2 ^ 32 := by
  rw [commandValue, BitVec.zeroExtend, BitVec.toNat_setWidth]
  exact Nat.lt_of_le_of_lt (Nat.mod_le _ _) (encode i).isLt

end Sys2Proof

namespace Sys2Proof.Machine

/-! ## The invariant, port by port -/

/-- What the invariant says of port `p` and of the lock and the seed it stands under. -/
structure State.PortInv (s : State) (p : Nat) : Prop where
  /-- The port's own registers and sequencer. -/
  ok : portOk s.cfg (s.port p) = true
  /-- A port that runs under the lock holds it (R95). -/
  holds : (s.port p).runsLocked = true → s.lock = .held p
  /-- The holder runs under the lock, or has faulted while it took it (R172). -/
  held : s.lock = .held p → p < s.ports.length ∧
    ((s.port p).runsLocked = true ∨ s.halted = true ∧ (s.port p).seq.phase = .waitLock)
  /-- Before the seed only INIT runs under the lock (R98). -/
  seed : s.seeded = true ∨ ((s.port p).runsLocked = true → (s.port p).seq.op = some .init)

/-- A property of the reset port holds of every port of a block where it holds at every index. -/
theorem forall_port_iff {s : State} {P : Port → Prop} (h : P Port.reset) :
    (∀ q ∈ s.ports, P q) ↔ ∀ p, P (s.port p) := by
  constructor
  · intro hall p
    by_cases hp : p < s.ports.length
    · rw [State.port, List.getD_eq_getElem _ _ hp]
      exact hall _ (List.getElem_mem hp)
    · rwa [State.port, List.getD_eq_default _ _ (Nat.le_of_not_lt hp)]
  · intro hall q hq
    obtain ⟨p, hp, rfl⟩ := List.getElem_of_mem hq
    have := hall p
    rwa [State.port, List.getD_eq_getElem _ _ hp] at this

@[simp] theorem port_of_length_le {s : State} {p : Nat} (hp : s.ports.length ≤ p) : s.port p = Port.reset := by
  rw [State.port, List.getD_eq_default _ _ hp]

theorem portOk_reset (cfg : Config.Params) : portOk cfg Port.reset = true := rfl

theorem runsLocked_reset : Port.reset.runsLocked = false := rfl

/-- A port that runs under the lock is a port of the block. -/
theorem lt_length_of_runsLocked {s : State} {p : Nat} (h : (s.port p).runsLocked = true) : p < s.ports.length := by
  by_contra hp
  rw [port_of_length_le (Nat.le_of_not_lt hp), runsLocked_reset] at h
  cases h

/-- The lock's condition of the invariant, by the port that runs under it and by the port that holds it (R13, R95). -/
theorem lockOk_iff {s : State} : lockOk s = true ↔
    (∀ p, (s.port p).runsLocked = true → s.lock = .held p) ∧
      ∀ p, s.lock = .held p → p < s.ports.length ∧
        ((s.port p).runsLocked = true ∨ s.halted = true ∧ (s.port p).seq.phase = .waitLock) := by
  unfold lockOk
  cases hl : s.lock with
  | free =>
    simp only [List.all_eq_true, Bool.not_eq_true']
    rw [forall_port_iff (P := fun q => q.runsLocked = false) runsLocked_reset]
    simp
  | held p =>
    simp only [Bool.and_eq_true, decide_eq_true_eq, Bool.or_eq_true, beq_iff_eq, List.all_eq_true, List.mem_range,
      Bool.not_eq_true', Lock.held.injEq]
    constructor
    · rintro ⟨⟨hp, hrun⟩, hothers⟩
      refine ⟨fun r hr => ?_, fun r hr => hr ▸ ⟨hp, hrun⟩⟩
      rcases hothers r (lt_length_of_runsLocked hr) with h | h
      · exact h.symm
      · rw [hr] at h; cases h
    · rintro ⟨hruns, hholder⟩
      refine ⟨hholder p rfl, fun r _ => ?_⟩
      cases hr : (s.port r).runsLocked with
      | true => exact .inl (hruns r hr).symm
      | false => exact .inr rfl

/-- The seed's condition of the invariant (R98). -/
theorem seedOk_iff {s : State} : seedOk s = true ↔
    ∀ p, s.seeded = true ∨ ((s.port p).runsLocked = true → (s.port p).seq.op = some .init) := by
  unfold seedOk
  simp only [Bool.or_eq_true, List.all_eq_true, Bool.not_eq_true', beq_iff_eq]
  rw [forall_port_iff (P := fun q => q.runsLocked = false ∨ q.seq.op = some .init) (.inl runsLocked_reset),
    ← forall_or_left]
  simp only [← Bool.not_eq_true, ← imp_iff_not_or]

/-- No port is between two byte writes of one sample. -/
theorem midSample_eq_false {s : State} : s.midSample = false ↔ ∀ p, (s.port p).seq.out = [] := by
  unfold State.midSample
  simp only [List.any_eq_false, Bool.not_eq_true, writing_eq_false]
  exact forall_port_iff (P := fun q => q.seq.out = []) rfl

/-- The fault registers' condition of the invariant (R26, R27). -/
theorem faultOk_iff {s : State} : faultOk s = true ↔
    (s.fault = 0 ∧ s.finfo = 0) ∨ ∃ p, p < s.ports.length ∧ ∃ c, s.fault = faultWord c p := by
  have hcodes : ∀ P : FatalCode → Prop,
      (∃ c, P c) ↔ P .fmtSentinel ∨ P .segZeroDenom ∨ P .illegalCmd ∨ P .busyViolation ∨ P .notSeeded := fun P =>
    ⟨fun ⟨c, hc⟩ => by cases c <;> simp [hc], fun h => by
      rcases h with h | h | h | h | h <;> exact ⟨_, h⟩⟩
  simp [faultOk, hcodes]

/-- The diagnostic register's condition of the invariant (R30). -/
theorem diagOk_iff {s : State} : diagOk s = true ↔
    s.diagSrc = 0 ∨ ∃ p, p < s.ports.length ∧ ∃ k, s.diagSrc = diagSourceWord k p := by
  have hcurves : ∀ P : Curve → Prop, (∃ k, P k) ↔ P .flat ∨ P .taper ∨ P .seg := fun P =>
    ⟨fun ⟨k, hk⟩ => by cases k <;> simp [hk], fun h => by rcases h with h | h | h <;> exact ⟨_, h⟩⟩
  simp [diagOk, hcurves]

/-- A halted block holds whole samples (R176). -/
theorem wholeOk_iff {s : State} : wholeOk s = true ↔ (s.halted = true → ∀ p, (s.port p).seq.out = []) := by
  rw [← midSample_eq_false, wholeOk]
  cases s.halted <;> simp

/-- The invariant, with the conditions on the ports, the lock and the seed port by port. -/
theorem inv_iff {s : State} : s.Inv ↔
    Memory.wf s.mem ∧ (∀ p, s.PortInv p) ∧ faultOk s = true ∧ diagOk s = true ∧ wholeOk s = true := by
  unfold State.Inv
  rw [List.all_eq_true, forall_port_iff (P := fun q => portOk s.cfg q = true) (portOk_reset _), lockOk_iff, seedOk_iff]
  constructor
  · rintro ⟨hmem, hok, ⟨hruns, hholder⟩, hseed, hfault, hdiag, hwhole⟩
    exact ⟨hmem, fun p => ⟨hok p, hruns p, hholder p, hseed p⟩, hfault, hdiag, hwhole⟩
  · rintro ⟨hmem, hport, hfault, hdiag, hwhole⟩
    exact ⟨hmem, fun p => (hport p).ok, ⟨fun p => (hport p).holds, fun p => (hport p).held⟩, fun p => (hport p).seed,
      hfault, hdiag, hwhole⟩

/-- In the state after reset every port is as reset leaves it. -/
theorem port_resetWith (cfg : Config.Params) (n : Nat) (platform : List Region) (p : Nat) :
    (State.resetWith cfg n platform).port p = Port.reset := by
  simp only [State.port, State.resetWith, List.getD_eq_getElem?_getD, List.getElem?_replicate]
  split <;> rfl

/-- The state after reset meets the invariant. -/
theorem inv_resetWith (cfg : Config.Params) (n : Nat) (platform : List Region) :
    (State.resetWith cfg n platform).Inv := by
  refine inv_iff.mpr ⟨⟨.nil, nofun⟩, fun p => ?_, faultOk_iff.mpr (.inl ⟨rfl, rfl⟩), diagOk_iff.mpr (.inl rfl),
    wholeOk_iff.mpr nofun⟩
  have hp := port_resetWith cfg n platform p
  exact ⟨by rw [hp]; exact portOk_reset _, by rw [hp]; exact nofun, nofun, .inr (by rw [hp]; exact nofun)⟩

/-- Every register of the state after reset reads 0 (R37). -/
theorem regRead_resetWith (cfg : Config.Params) (n : Nat) (platform : List Region) (p : Nat) (k : Slot) :
    regRead (State.resetWith cfg n platform) p k = 0 := by
  have hstatus : statusWord (State.resetWith cfg n platform) p = 0 :=
    statusWord_eq_zero (by rw [port_resetWith]; rfl) nofun rfl rfl
  simp only [regRead, port_resetWith, hstatus]
  split <;> rfl

/-- Settles O55: port by port. -/
theorem resetMeetsTheInvariant : Obligations.ResetMeetsTheInvariant :=
  ⟨fun cfg n platform => ⟨inv_resetWith cfg n platform, regRead_resetWith cfg n platform, rfl, rfl,
    fun p => by rw [port_resetWith]; rfl, List.length_replicate⟩, inv_resetWith _ _ _⟩

end Sys2Proof.Machine

namespace Sys2Proof.Machine

/-! ## The invariant of a port, phase by phase -/

theorem cmd_lt_of_portOk {cfg : Config.Params} {q : Port} (h : portOk cfg q = true) : q.cmd.toNat < 2 ^ 32 := by
  simp only [portOk, Bool.and_eq_true, decide_eq_true_eq] at h
  exact h.1.1

/-- A port that has no byte write left and no mark set has nothing to be checked for. -/
theorem writesOk_of_nothing_left (cfg : Config.Params) {q : Port} (hout : q.seq.out = []) (hsent : q.seq.sent = false) :
    writesOk cfg q = true := by
  unfold writesOk
  cases q.seq.phase <;> cases q.seq.op <;> simp [hout, hsent]

/-- Only a port that runs a command has byte writes left, or its mark set. -/
theorem writesOk_of_not_run {cfg : Config.Params} {q : Port} (hp : q.seq.phase ≠ .run) :
    writesOk cfg q = true ↔ q.seq.out = [] ∧ q.seq.sent = false := by
  constructor
  · intro h
    unfold writesOk at h
    cases hph : q.seq.phase with
    | run => exact absurd hph hp
    | idle => simp [hph] at h; simp [h]
    | waitLock => simp [hph] at h; simp [h]
  · exact fun ⟨hout, hsent⟩ => writesOk_of_nothing_left cfg hout hsent

/-- An idle port runs no command, and no byte write is left. -/
theorem portOk_idle {cfg : Config.Params} {q : Port} (hp : q.seq.phase = .idle) :
    portOk cfg q = true ↔
      q.cmd.toNat < 2 ^ 32 ∧ q.seq.op = none ∧ q.seq.out = [] ∧ q.seq.sent = false := by
  unfold portOk
  rw [Bool.and_eq_true, Bool.and_eq_true, writesOk_of_not_run (by simp [hp]), decide_eq_true_eq, hp]
  cases q.seq.op <;> simp

/-- A port that waits for the lock runs a command that takes it (R95), and no byte write is left. -/
theorem portOk_waitLock {cfg : Config.Params} {q : Port} {i : Instr} (hp : q.seq.phase = .waitLock)
    (ho : q.seq.op = some i) :
    portOk cfg q = true ↔
      q.cmd = commandValue i ∧ i.takesLock = true ∧ streamOk cfg q i = true ∧ q.seq.out = [] ∧ q.seq.sent = false := by
  unfold portOk
  rw [Bool.and_eq_true, Bool.and_eq_true, writesOk_of_not_run (by simp [hp]), decide_eq_true_eq, hp, ho]
  simp only [Bool.and_eq_true, beq_iff_eq]
  constructor
  · rintro ⟨⟨-, hout, hsent⟩, ⟨hcmd, hlock⟩, hstream⟩
    exact ⟨hcmd, hlock, hstream, hout, hsent⟩
  · rintro ⟨hcmd, hlock, hstream, hout, hsent⟩
    exact ⟨⟨hcmd ▸ commandValue_lt i, hout, hsent⟩, ⟨hcmd, hlock⟩, hstream⟩

/-- A port that runs a command. -/
theorem portOk_run {cfg : Config.Params} {q : Port} {i : Instr} (hp : q.seq.phase = .run) (ho : q.seq.op = some i) :
    portOk cfg q = true ↔ q.cmd = commandValue i ∧ streamOk cfg q i = true ∧ writesOk cfg q = true := by
  unfold portOk
  rw [Bool.and_eq_true, Bool.and_eq_true, decide_eq_true_eq, hp, ho]
  simp only [Bool.and_eq_true, beq_iff_eq]
  constructor
  · rintro ⟨⟨-, hwrites⟩, hcmd, hstream⟩
    exact ⟨hcmd, hstream, hwrites⟩
  · rintro ⟨hcmd, hstream, hwrites⟩
    exact ⟨⟨hcmd ▸ commandValue_lt i, hwrites⟩, hcmd, hstream⟩

/-- A command that writes no memory has no stream. -/
theorem streamOk_of_neither {i : Instr} (cfg : Config.Params) (q : Port) (hs : i.isSyn = false) (he : i.isEnc = false) :
    streamOk cfg q i = true := by
  simp [streamOk, hs, he]

/-- A command that writes no memory never has a byte write left, nor its mark set. -/
theorem nothing_left_of_neither {cfg : Config.Params} {q : Port} {i : Instr} (hp : q.seq.phase = .run)
    (ho : q.seq.op = some i) (hs : i.isSyn = false) (he : i.isEnc = false) (h : portOk cfg q = true) :
    q.seq.out = [] ∧ q.seq.sent = false := by
  obtain ⟨-, -, hw⟩ := (portOk_run hp ho).mp h
  simp [writesOk, hp, ho, hs, he] at hw
  exact ⟨hw.2.2, hw.2.1⟩

/-- The stream of a SYN with a concrete format: its range fits (R50), and, where the stream is loaded, the cursor stands
right after the samples made (R125). -/
theorem streamOk_syn {cfg : Config.Params} {q : Port} {f : Format} {dth : Bool} {row : Row}
    (hrow : describe f = some row) :
    streamOk cfg q (.syn f dth) = true ↔ q.rangeFits row.byteWidth = true ∧
      (q.seq.phase = .run ∨ cfg.lockGrain = .sample → q.seq.sidx.toNat ≤ q.samples ∧
        q.seq.cur = q.buf + BitVec.ofNat 64 (q.seq.sidx.toNat * row.byteWidth)) := by
  simp [streamOk, hrow, imp_iff_not_or]

/-- An ENC has no stream, only a concrete format. -/
theorem streamOk_enc {cfg : Config.Params} {q : Port} {f : Format} :
    streamOk cfg q (.enc f) = true ↔ ∃ row, describe f = some row := by
  cases h : describe f <;> simp [streamOk, h]

/-- The buffer of a SYN (R49). -/
theorem owns_syn {q : Port} {f : Format} {dth : Bool} {row : Row} (ho : q.seq.op = some (.syn f dth))
    (hrow : describe f = some row) (a : Word) :
    q.owns a = true ↔ (a - q.buf).toNat < q.samples * row.byteWidth := by
  simp [Port.owns, Port.bufferBytes, ho, hrow]

/-- The buffer of an ENC (R49). -/
theorem owns_enc {q : Port} {f : Format} {row : Row} (ho : q.seq.op = some (.enc f)) (hrow : describe f = some row)
    (a : Word) : q.owns a = true ↔ (a - q.buf).toNat < row.byteWidth := by
  simp [Port.owns, Port.bufferBytes, ho, hrow]

/-- What holds of a port that runs a SYN, but for `CMD`. -/
structure Port.SynInv (cfg : Config.Params) (row : Row) (q : Port) : Prop where
  /-- Its range fits (R50). -/
  fits : q.rangeFits row.byteWidth = true
  /-- At most `2 * NFR` samples are made (R105). -/
  made : q.seq.sidx.toNat ≤ q.samples
  /-- The cursor stands right after them (R125). -/
  cur : q.seq.cur = q.buf + BitVec.ofNat 64 (q.seq.sidx.toNat * row.byteWidth)
  /-- The byte writes left lie in its buffer (R49). -/
  owned : ∀ w ∈ q.seq.out, (w.1 - q.buf).toNat < q.samples * row.byteWidth
  /-- The mark is set only where each sample has its own lock (R137; log 28). -/
  mark : q.seq.sent = true → cfg.lockGrain = .sample
  /-- Between two byte writes of a sample, that sample is still to end (R106). -/
  mid : q.seq.out ≠ [] → q.seq.sidx.toNat < q.samples ∧ (cfg.lockGrain = .sample → q.seq.sent = true)

/-- A port that runs a SYN with a concrete format. -/
theorem portOk_syn {cfg : Config.Params} {q : Port} {f : Format} {dth : Bool} {row : Row} (hp : q.seq.phase = .run)
    (ho : q.seq.op = some (.syn f dth)) (hrow : describe f = some row) :
    portOk cfg q = true ↔ q.cmd = commandValue (.syn f dth) ∧ q.SynInv cfg row := by
  have hwrites : writesOk cfg q = true ↔
      (∀ w ∈ q.seq.out, (w.1 - q.buf).toNat < q.samples * row.byteWidth) ∧
        (q.seq.sent = true → cfg.lockGrain = .sample) ∧
        (q.seq.out ≠ [] → q.seq.sidx.toNat < q.samples ∧ (cfg.lockGrain = .sample → q.seq.sent = true)) := by
    simp only [writesOk, hp, ho, Instr.isEnc_syn, Instr.isSyn_syn, Bool.and_eq_true, List.all_eq_true,
      owns_syn ho hrow]
    refine and_congr_right fun _ => ?_
    cases cfg.lockGrain <;> cases q.seq.sent <;> cases q.seq.out <;> simp
  rw [portOk_run hp ho, streamOk_syn hrow, hwrites]
  constructor
  · rintro ⟨hcmd, ⟨hfits, hcur⟩, howned, hmark, hmid⟩
    obtain ⟨hmade, hcur⟩ := hcur (.inl hp)
    exact ⟨hcmd, hfits, hmade, hcur, howned, hmark, hmid⟩
  · rintro ⟨hcmd, hfits, hmade, hcur, howned, hmark, hmid⟩
    exact ⟨hcmd, ⟨hfits, fun _ => ⟨hmade, hcur⟩⟩, howned, hmark, hmid⟩

/-- A port that runs an ENC with a concrete format: the byte writes left lie in its buffer, and none is left before its
`MemWrite` has begun. -/
theorem portOk_enc {cfg : Config.Params} {q : Port} {f : Format} {row : Row} (hp : q.seq.phase = .run)
    (ho : q.seq.op = some (.enc f)) (hrow : describe f = some row) :
    portOk cfg q = true ↔ q.cmd = commandValue (.enc f) ∧
      (∀ w ∈ q.seq.out, (w.1 - q.buf).toNat < row.byteWidth) ∧ (q.seq.out ≠ [] → q.seq.sent = true) := by
  have hwrites : writesOk cfg q = true ↔
      (∀ w ∈ q.seq.out, (w.1 - q.buf).toNat < row.byteWidth) ∧ (q.seq.out ≠ [] → q.seq.sent = true) := by
    simp only [writesOk, hp, ho, Instr.isEnc_enc, Instr.isSyn_enc, Bool.and_eq_true, List.all_eq_true,
      owns_enc ho hrow]
    refine and_congr_right fun _ => ?_
    cases q.seq.sent <;> cases q.seq.out <;> simp
  rw [portOk_run hp ho, streamOk_enc, hwrites]
  exact and_congr_right fun _ => and_iff_right ⟨row, hrow⟩

/-! ## The samples of a SYN -/

/-- What holds of a port that runs a SYN from the first byte write of a sample to the end of that sample. -/
structure Port.Sampling (cfg : Config.Params) (row : Row) (q : Port) : Prop where
  fits : q.rangeFits row.byteWidth = true
  more : q.seq.sidx.toNat < q.samples
  cur : q.seq.cur = q.buf + BitVec.ofNat 64 (q.seq.sidx.toNat * row.byteWidth)
  owned : ∀ w ∈ q.seq.out, (w.1 - q.buf).toNat < q.samples * row.byteWidth
  mark : q.seq.sent = (cfg.lockGrain == .sample)

/-- A port between two byte writes of a sample has performed one more. -/
theorem Port.SynInv.sampling {cfg : Config.Params} {row : Row} {q : Port} {w : Word × Byte} {rest : List (Word × Byte)}
    (h : q.SynInv cfg row) (hout : q.seq.out = w :: rest) : (q.withOut rest).Sampling cfg row := by
  obtain ⟨hfits, -, hcur, howned, hmark, hmid⟩ := h
  obtain ⟨hmore, hsent⟩ := hmid (by simp [hout])
  refine ⟨hfits, hmore, hcur, fun v hv => howned v (by rw [hout]; exact List.mem_cons_of_mem w hv), ?_⟩
  exact Bool.eq_iff_iff.mpr ⟨fun hs => beq_iff_eq.mpr (hmark hs), fun hg => hsent (beq_iff_eq.mp hg)⟩

/-- The samples a SYN makes are fewer than the sample index can count. -/
theorem samples_lt (q : Port) : q.samples < 2 ^ 33 := by
  have := q.nfr.isLt
  unfold Port.samples
  omega

/-- The `k`-th byte of a sample to be made lies in the buffer (R49, R125). -/
theorem sample_byte_owned {q : Port} {row : Row} {k : Nat} (hmore : q.seq.sidx.toNat < q.samples)
    (hcur : q.seq.cur = q.buf + BitVec.ofNat 64 (q.seq.sidx.toNat * row.byteWidth)) (hk : k < row.byteWidth) :
    (q.seq.cur + BitVec.ofNat 64 k - q.buf).toNat < q.samples * row.byteWidth := by
  have hoffset : q.seq.cur + BitVec.ofNat 64 k - q.buf
      = BitVec.ofNat 64 (q.seq.sidx.toNat * row.byteWidth + k) := by
    rw [hcur, BitVec.ofNat_add, BitVec.add_assoc, add_sub_cancel_left]
  have hlast : (q.seq.sidx.toNat + 1) * row.byteWidth ≤ q.samples * row.byteWidth :=
    Nat.mul_le_mul_right _ hmore
  rw [Nat.succ_mul] at hlast
  rw [hoffset, BitVec.toNat_ofNat]
  exact Nat.lt_of_le_of_lt (Nat.mod_le _ _) (by omega)

/-- The byte writes of the sample a SYN begins lie in its buffer. -/
theorem Port.SynInv.begins {cfg : Config.Params} {row : Row} {q : Port} {bytes : List Byte}
    (h : q.SynInv cfg row) (hmore : q.seq.sidx.toNat < q.samples) (hlen : bytes.length = row.byteWidth) :
    ((q.withSent (cfg.lockGrain == .sample)).withOut (byteWrites q.seq.cur bytes)).Sampling cfg row := by
  refine ⟨h.fits, hmore, h.cur, fun w hw => ?_, rfl⟩
  obtain ⟨k, hk, ha, -⟩ := mem_byteWrites hw
  rw [ha]
  exact sample_byte_owned hmore h.cur (hlen ▸ hk)

/-- Fewer byte writes left. -/
theorem Port.Sampling.tail {cfg : Config.Params} {row : Row} {q : Port} {w : Word × Byte} {rest : List (Word × Byte)}
    (h : q.Sampling cfg row) (hout : q.seq.out = w :: rest) : (q.withOut rest).Sampling cfg row :=
  ⟨h.fits, h.more, h.cur, fun v hv => h.owned v (by rw [hout]; exact List.mem_cons_of_mem w hv), h.mark⟩

/-- Between two byte writes of a sample the stream stands as before it. -/
theorem Port.Sampling.synInv {cfg : Config.Params} {row : Row} {q : Port} (h : q.Sampling cfg row) : q.SynInv cfg row :=
  ⟨h.fits, h.more.le, h.cur, h.owned, fun hs => by simpa [hs] using h.mark,
    fun _ => ⟨h.more, fun hg => by simpa [hg] using h.mark⟩⟩

/-- After the last byte of a sample the stream moves past it (R106). -/
theorem Port.Sampling.pastSample {cfg : Config.Params} {row : Row} {q : Port} (h : q.Sampling cfg row)
    (hout : q.seq.out = []) (r : Word) : (q.pastSample row.byteWidth r).SynInv cfg row := by
  have hlt := samples_lt q
  have hmore := h.more
  have hsidx : (q.seq.sidx + 1).toNat = q.seq.sidx.toNat + 1 := by
    rw [BitVec.toNat_add]
    exact Nat.mod_eq_of_lt (by simp; omega)
  have hnone : (q.pastSample row.byteWidth r).seq.out = [] := hout
  refine ⟨h.fits, ?_, ?_, by rw [hnone]; exact nofun, fun hs => ?_, fun hne => absurd hnone hne⟩
  · rw [Port.pastSample_seq_sidx, hsidx]
    exact hmore
  · rw [Port.pastSample_seq_sidx, Port.pastSample_seq_cur, Port.pastSample_buf, hsidx, h.cur, BitVec.add_assoc,
      ← BitVec.ofNat_add, Nat.succ_mul]
  · rw [Port.pastSample_seq_sent, h.mark] at hs
    simpa using hs

end Sys2Proof.Machine

namespace Sys2Proof.Machine

/-! ## What a command's step must keep -/

/-- The acting port meets its part of the invariant after a step, and the step gives the lock to no other port and
takes it from none. -/
structure State.KeepsPort (s t : State) : Prop where
  own : t.PortInv s.active
  lock : ∀ r, r ≠ s.active → (t.lock = .held r ↔ s.lock = .held r)

/-- A step that keeps the acting port's part of the invariant keeps that of every port. -/
theorem State.KeepsPort.portInv {s t : State} (h : s.KeepsPort t) (ha : s.SameAround t) (hinv : ∀ p, s.PortInv p)
    (hseeded : s.seeded = true → t.seeded = true) (hhalted : s.halted = true → t.halted = true) (p : Nat) :
    t.PortInv p := by
  by_cases hp : p = s.active
  · exact hp ▸ h.own
  · obtain ⟨hok, hholds, hheld, hseed⟩ := hinv p
    rw [← ha.port hp] at hok hholds hheld hseed
    refine ⟨ha.cfg ▸ hok, fun hr => (h.lock p hp).mpr (hholds hr), fun hl => ?_, hseed.imp_left hseeded⟩
    obtain ⟨hlt, hrun⟩ := hheld ((h.lock p hp).mp hl)
    exact ⟨ha.length ▸ hlt, hrun.imp_right (And.imp_left hhalted)⟩

theorem runsLocked_of_run {q : Port} {i : Instr} (hp : q.seq.phase = .run) (ho : q.seq.op = some i) :
    q.runsLocked = i.takesLock := by
  simp [Port.runsLocked, hp, ho]

theorem runsLocked_of_not_run {q : Port} (hp : q.seq.phase ≠ .run) : q.runsLocked = false := by
  unfold Port.runsLocked
  cases h : q.seq.phase <;> simp_all

theorem runsLocked_congr {q r : Port} (hp : r.seq.phase = q.seq.phase) (ho : r.seq.op = q.seq.op) :
    r.runsLocked = q.runsLocked := by
  simp [Port.runsLocked, hp, ho]

section
variable {s t : State} (hinv : s.PortInv s.active)
include hinv

/-- A port of a block that is not halted does not hold the lock unless it runs under it. -/
theorem State.PortInv.not_held (hh : s.halted = false) (hs : s.me.runsLocked = false) : s.lock ≠ .held s.active := by
  intro hl
  rcases (hinv.held hl).2 with hrun | ⟨hhalted, -⟩
  · exact Bool.false_ne_true (hs.symm.trans hrun)
  · exact Bool.false_ne_true (hh.symm.trans hhalted)

/-- A step that keeps the lock, and the command and the phase of its port. -/
theorem keepsPort_of_same_phase (ha : s.SameAround t) (hlock : t.lock = s.lock)
    (hseeded : s.seeded = true → t.seeded = true) (hhalted : s.halted = true → t.halted = true)
    (hphase : t.me.seq.phase = s.me.seq.phase) (hop : t.me.seq.op = s.me.seq.op) (hok : portOk s.cfg t.me = true) :
    s.KeepsPort t := by
  have hruns := runsLocked_congr hphase hop
  have hme : t.port s.active = t.me := by rw [State.me, ha.active]
  refine ⟨⟨by rw [hme, ha.cfg]; exact hok, fun hr => ?_, fun hl => ?_, ?_⟩, fun r _ => by rw [hlock]⟩
  · rw [hme, hruns] at hr
    exact hlock.trans (hinv.holds hr)
  · obtain ⟨hlt, hrun⟩ := hinv.held (hlock.symm.trans hl)
    rw [hme, hruns, hphase]
    exact ⟨ha.length ▸ hlt, hrun.imp_right (And.imp_left hhalted)⟩
  · rw [hme, hruns, hop]
    exact hinv.seed.imp_left hseeded

/-- A step of a port that does not run under the lock, before it or after it. -/
theorem keepsPort_of_unlocked (hh : s.halted = false) (hs : s.me.runsLocked = false) (ha : s.SameAround t)
    (hlock : t.lock = s.lock) (ht : t.me.runsLocked = false) (hok : portOk s.cfg t.me = true) : s.KeepsPort t := by
  have hme : t.port s.active = t.me := by rw [State.me, ha.active]
  refine ⟨⟨by rw [hme, ha.cfg]; exact hok, fun hr => ?_, fun hl => ?_, .inr fun hr => ?_⟩, fun r _ => by rw [hlock]⟩
  · rw [hme, ht] at hr; cases hr
  · exact absurd (hlock.symm.trans hl) (hinv.not_held hh hs)
  · rw [hme, ht] at hr; cases hr

/-- A step in which a port that runs under the lock gives it back. -/
theorem keepsPort_of_release (hs : s.me.runsLocked = true) (ha : s.SameAround t) (hlock : t.lock = .free)
    (ht : t.me.runsLocked = false) (hok : portOk s.cfg t.me = true) : s.KeepsPort t := by
  have hme : t.port s.active = t.me := by rw [State.me, ha.active]
  have hheld := hinv.holds hs
  refine ⟨⟨by rw [hme, ha.cfg]; exact hok, fun hr => ?_, fun hl => ?_, .inr fun hr => ?_⟩, fun r hr => ?_⟩
  · rw [hme, ht] at hr; cases hr
  · rw [hlock] at hl; cases hl
  · rw [hme, ht] at hr; cases hr
  · rw [hlock, hheld]
    simp [Ne.symm hr]

end

/-- A step in which a port takes the lock that was free. -/
theorem keepsPort_of_take {s t : State} (hl : s.live = true) (hfree : s.lock = .free) (ha : s.SameAround t)
    (hlock : t.lock = .held s.active)
    (hrun : t.me.runsLocked = true ∨ t.halted = true ∧ t.me.seq.phase = .waitLock)
    (hseed : t.seeded = true ∨ (t.me.runsLocked = true → t.me.seq.op = some .init)) (hok : portOk s.cfg t.me = true) :
    s.KeepsPort t := by
  have hme : t.port s.active = t.me := by rw [State.me, ha.active]
  refine ⟨⟨by rw [hme, ha.cfg]; exact hok, fun _ => hlock, fun _ => ?_, hme ▸ hseed⟩, fun r hr => ?_⟩
  · exact ⟨ha.length ▸ State.active_lt_of_live hl, hme ▸ hrun⟩
  · rw [hlock, hfree]
    simp [Ne.symm hr]

/-! ## The shared operations keep it -/

/-- The acting port after an update of it, of the lock and of the memory. -/
theorem me_setMe_with {s : State} (h : s.active < s.ports.length) (q : Port) (k : Lock) (m : List Host.Cell) :
    ({ s.setMe q with lock := k, mem := m } : State).me = q := State.me_setMe s q h

theorem me_withGenerator (s : State) (d : Dither) (b : Bool) : (s.withGenerator d b).me = s.me := by cases s; rfl

theorem me_raiseFatal (c : FatalCode) (info : Word) (s : State) : (raiseFatal c info s).me = s.me := by
  rcases raiseFatal_cases c info s with ⟨-, e⟩ | ⟨-, e⟩ <;> rw [e]
  rfl

section
variable {s : State} (hinv : s.PortInv s.active)
include hinv

/-- No step. -/
theorem keepsPort_refl : s.KeepsPort s := ⟨hinv, fun _ _ => .rfl⟩

/-- A fatal fault. -/
theorem keepsPort_raiseFatal (c : FatalCode) (info : Word) : s.KeepsPort (raiseFatal c info s) := by
  have hme := me_raiseFatal c info s
  exact keepsPort_of_same_phase hinv (.raiseFatal c info s) (raiseFatal_lock c info s)
    (fun hs => (raiseFatal_seeded c info s).trans hs) (fun _ => raiseFatal_halted c info s) (by rw [hme]) (by rw [hme])
    (by rw [hme]; exact hinv.ok)

/-- The accepting step, where the port that accepts, `q`, differs at most in its stream. -/
theorem keepsPort_accept {i : Instr} {q : Port} (hs : s.Idle) (hout : q.seq.out = s.me.seq.out)
    (hsent : q.seq.sent = s.me.seq.sent)
    (hstream : streamOk s.cfg (q.accepting i (if i.takesLock then .waitLock else .run)) i = true) :
    s.KeepsPort (s.setMe (q.accepting i (if i.takesLock then .waitLock else .run))) := by
  obtain ⟨hl, hidle⟩ := hs
  obtain ⟨-, -, hnil, hno⟩ := (portOk_idle hidle).mp hinv.ok
  have hme := State.me_setMe s (q.accepting i (if i.takesLock then .waitLock else .run)) (State.active_lt_of_live hl)
  refine keepsPort_of_unlocked hinv (State.not_halted_of_live hl) (runsLocked_of_not_run (by simp [hidle]))
    (.setMe s _ s.lock s.mem) rfl ?_ ?_
  · rw [hme]
    cases htakes : i.takesLock with
    | true => exact runsLocked_of_not_run (by simp)
    | false => exact (runsLocked_of_run (i := i) (by simp) rfl).trans htakes
  · rw [hme]
    cases htakes : i.takesLock with
    | true =>
      rw [htakes] at hstream
      exact (portOk_waitLock rfl rfl).mpr ⟨rfl, htakes, hstream, hout.trans hnil, hsent.trans hno⟩
    | false =>
      rw [htakes] at hstream
      exact (portOk_run rfl rfl).mpr
        ⟨rfl, hstream, writesOk_of_nothing_left _ (hout.trans hnil) (hsent.trans hno)⟩

/-- The acquire step, where what is loaded is at most the stream. -/
theorem keepsPort_acquire {i : Instr} {load : Port → Port} (hs : s.Waiting) (hop : s.me.seq.op = some i)
    (hload : (load s.me).cmd = s.me.cmd ∧ (load s.me).seq.op = s.me.seq.op ∧ (load s.me).seq.out = s.me.seq.out ∧
      (load s.me).seq.sent = s.me.seq.sent)
    (hstream : streamOk s.cfg ((load s.me).withPhase .run) i = true) : s.KeepsPort (acquire i load s) := by
  obtain ⟨hl, hwait⟩ := hs
  obtain ⟨hcmd, htakes, -, hnil, hno⟩ := (portOk_waitLock hwait hop).mp hinv.ok
  obtain ⟨hlcmd, hlop, hlout, hlsent⟩ := hload
  rcases acquire_cases i load s with ⟨-, e⟩ | ⟨hfree, -, -, e⟩ | ⟨hfree, hseed, e⟩
  · rw [e]; exact keepsPort_refl hinv
  · have hme : (acquire i load s).me = s.me := by rw [e, me_raiseFatal]; rfl
    refine keepsPort_of_take hl hfree (.acquire i load s) (by rw [e, raiseFatal_lock])
      (.inr ⟨by rw [e]; exact raiseFatal_halted _ _ _, by rw [hme, hwait]⟩) (.inr fun hr => ?_)
      (by rw [hme]; exact hinv.ok)
    rw [hme, runsLocked_of_not_run (by simp [hwait])] at hr
    cases hr
  · have hme : (acquire i load s).me = (load s.me).withPhase .run := by
      rw [e]; exact me_setMe_with (State.active_lt_of_live hl) _ _ s.mem
    have hrun : (acquire i load s).me.runsLocked = true := by
      rw [hme, runsLocked_of_run (Port.withPhase_seq_phase _ _) (hlop.trans hop), htakes]
    refine keepsPort_of_take hl hfree (.acquire i load s) (by rw [e]) (.inl hrun) ?_ ?_
    · rw [hme, acquire_seeded]
      exact hseed.imp_right fun hi _ => by rw [← hi]; exact hlop.trans hop
    · rw [hme]
      exact (portOk_run (q := (load s.me).withPhase .run) rfl (hlop.trans hop)).mpr ⟨hlcmd.trans hcmd, hstream,
        writesOk_of_nothing_left _ (hlout.trans hnil) (hlsent.trans hno)⟩

/-- The port whose command has completed meets the invariant where no byte write is left and no mark set. -/
theorem portOk_completed {cfg : Config.Params} {q : Port} (hcmd : q.cmd = s.me.cmd) (hout : q.seq.out = [])
    (hsent : q.seq.sent = false) : portOk cfg q.completed = true :=
  (portOk_idle rfl).mpr ⟨by rw [Port.completed_cmd, hcmd]; exact cmd_lt_of_portOk hinv.ok, rfl, hout, hsent⟩

/-- The completion of a command that does not run under the lock, its other effects having given `u`. -/
theorem keepsPort_complete {u : State} (hl : s.live = true) (hs : s.me.runsLocked = false) (ha : s.SameAround u)
    (hlock : u.lock = s.lock) (hcmd : u.me.cmd = s.me.cmd) (hout : u.me.seq.out = []) (hsent : u.me.seq.sent = false) :
    s.KeepsPort (complete u) := by
  have hlt : u.active < u.ports.length := by rw [ha.active, ha.length]; exact State.active_lt_of_live hl
  have hme : (complete u).me = u.me.completed := State.me_setMe u _ hlt
  refine keepsPort_of_unlocked hinv (State.not_halted_of_live hl) hs (ha.trans (.complete u)) hlock ?_ ?_
  · rw [hme]; exact runsLocked_of_not_run (by simp)
  · rw [hme]; exact portOk_completed hinv hcmd hout hsent

/-- The completion of a command that runs under the lock, its other effects having given `u`. -/
theorem keepsPort_completeLocked {u : State} (hl : s.live = true) (hs : s.me.runsLocked = true) (ha : s.SameAround u)
    (hcmd : u.me.cmd = s.me.cmd) (hout : u.me.seq.out = []) (hsent : u.me.seq.sent = false) :
    s.KeepsPort (completeLocked u) := by
  have hlt : u.active < u.ports.length := by rw [ha.active, ha.length]; exact State.active_lt_of_live hl
  have hme : (completeLocked u).me = u.me.completed := me_setMe_with hlt _ _ u.mem
  refine keepsPort_of_release hinv hs (ha.trans (.completeLocked u)) rfl ?_ ?_
  · rw [hme]; exact runsLocked_of_not_run (by simp)
  · rw [hme]; exact portOk_completed hinv hcmd hout hsent

end

end Sys2Proof.Machine

namespace Sys2Proof.Machine

/-! ## The steps of each family keep the invariant of their port -/

/-- What a command's step does in each phase it may be in is what holds of the step. -/
theorem byPhase_elim {P : State → Prop} {s t : State} {f g h : State → Outcome State} (hstay : P s)
    (hf : s.Idle → f s = .next t → P t) (hg : s.Waiting → g s = .next t → P t) (hh : s.Running → h s = .next t → P t)
    (ht : byPhase s f g h = .next t) : P t := by
  rcases byPhase_cases s f g h with ⟨-, e⟩ | ⟨hl, hp, e⟩ | ⟨hl, hp, e⟩ | ⟨hl, hp, e⟩ <;> rw [e] at ht
  · cases ht; exact hstay
  · exact hf ⟨hl, hp⟩ ht
  · exact hg ⟨hl, hp⟩ ht
  · exact hh ⟨hl, hp⟩ ht

section
variable {s t : State} (hinv : s.PortInv s.active)
include hinv

/-- A SYN or ENC with a sentinel format. -/
theorem rejectSentinel_keepsPort {f : Format} (h : rejectSentinel f s = .next t) : s.KeepsPort t :=
  byPhase_elim (keepsPort_refl hinv) (fun _ e => by cases e; exact keepsPort_raiseFatal hinv _ _)
    (fun _ e => by cases e; exact keepsPort_refl hinv) (fun _ e => by cases e; exact keepsPort_refl hinv) h

/-- A command that writes no memory is accepted. -/
theorem accept_keepsPort_of_neither {i : Instr} (hsyn : i.isSyn = false) (henc : i.isEnc = false) (hs : s.Idle) :
    s.KeepsPort (accept i s) :=
  keepsPort_accept hinv hs rfl rfl (streamOk_of_neither _ _ hsyn henc)

/-- INIT and DRAW, whose effect leaves their port's `CMD` and sequencer to the completion. -/
theorem lockedCommand_keepsPort {i : Instr} {effect : State → State}
    (hop : s.me.seq.phase ≠ .idle → s.me.seq.op = some i)
    (htakes : i.takesLock = true) (hsyn : i.isSyn = false) (henc : i.isEnc = false) (ha : s.SameAround (effect s))
    (heffect : s.Running → (effect s).me.cmd = s.me.cmd ∧ (effect s).me.seq = s.me.seq)
    (h : lockedCommand i effect s = .next t) : s.KeepsPort t := by
  refine byPhase_elim (keepsPort_refl hinv) (fun hs e => ?_) (fun hs e => ?_) (fun hs e => ?_) h <;> cases e
  · exact accept_keepsPort_of_neither hinv hsyn henc hs
  · exact keepsPort_acquire hinv hs (hop (by simp [hs.2])) ⟨rfl, rfl, rfl, rfl⟩ (streamOk_of_neither _ _ hsyn henc)
  · have ho := hop (by simp [hs.2])
    obtain ⟨hout, hsent⟩ := nothing_left_of_neither hs.2 ho hsyn henc hinv.ok
    obtain ⟨hcmd, hseq⟩ := heffect hs
    exact keepsPort_completeLocked hinv hs.1 ((runsLocked_of_run hs.2 ho).trans htakes) ha hcmd (hseq ▸ hout)
      (hseq ▸ hsent)

/-- VC and FMTQ, given that their run step keeps the port's invariant. -/
theorem plainCommand_keepsPort {i : Instr} {onRun : State → Outcome State} (hsyn : i.isSyn = false)
    (henc : i.isEnc = false) (hrun : s.Running → onRun s = .next t → s.KeepsPort t)
    (h : plainCommand (fun s => .next (accept i s)) onRun s = .next t) : s.KeepsPort t :=
  byPhase_elim (keepsPort_refl hinv)
    (fun hs e => by cases e; exact accept_keepsPort_of_neither hinv hsyn henc hs)
    (fun _ e => by cases e; exact keepsPort_refl hinv) hrun h

/-- The run step of VC. -/
theorem volumeRun_keepsPort {k : Curve} (hs : s.Running) (hop : s.me.seq.op = some (.vc k)) (r : CurveResult) :
    s.KeepsPort (volumeRun k r s) := by
  have hfree : s.me.runsLocked = false := (runsLocked_of_run hs.2 hop).trans (Instr.takesLock_vc k)
  obtain ⟨hout, hsent⟩ := nothing_left_of_neither hs.2 hop (Instr.isSyn_vc k) (Instr.isEnc_vc k) hinv.ok
  have hres (v : Word) : (writeRes v s).me = { s.me with res := v } :=
    State.me_setMe s _ (State.active_lt_of_live hs.1)
  have hdiag (v w : Word) : (diag k w (writeRes v s)).me = { s.me with res := v } := hres v
  rcases volumeRun_cases k r s with ⟨v, -, e⟩ | ⟨v, -, e⟩ | ⟨n, -, e⟩ <;> rw [e]
  · exact keepsPort_complete hinv hs.1 hfree (.writeRes v s) rfl (by rw [hres]) (by rw [hres]; exact hout)
      (by rw [hres]; exact hsent)
  · exact keepsPort_complete hinv hs.1 hfree ((State.SameAround.writeRes v s).trans (.diag k _ _)) rfl
      (by rw [hdiag]) (by rw [hdiag]; exact hout) (by rw [hdiag]; exact hsent)
  · exact keepsPort_raiseFatal hinv _ _

/-- The run step of FMTQ. -/
theorem answer_keepsPort {f : Format} (hs : s.Running) (hop : s.me.seq.op = some (.fmtq f)) (v : Word) :
    s.KeepsPort (complete (writeRes v s)) := by
  obtain ⟨hout, hsent⟩ := nothing_left_of_neither hs.2 hop (Instr.isSyn_fmtq f) (Instr.isEnc_fmtq f) hinv.ok
  have hres : (writeRes v s).me = { s.me with res := v } := State.me_setMe s _ (State.active_lt_of_live hs.1)
  exact keepsPort_complete hinv hs.1 ((runsLocked_of_run hs.2 hop).trans (Instr.takesLock_fmtq f)) (.writeRes v s) rfl
    (by rw [hres]) (by rw [hres]; exact hout) (by rw [hres]; exact hsent)

/-- The accepting step of a SYN with a concrete format. -/
theorem synAccept_keepsPort {f : Format} {dth : Bool} {row : Row} (hrow : describe f = some row) (hs : s.Idle)
    (h : synAccept (.syn f dth) row s = .next t) : s.KeepsPort t := by
  have htakes := Instr.takesLock_syn f dth
  rcases synAccept_cases (.syn f dth) row s with ⟨-, e⟩ | ⟨hfits, hgrain, e⟩ | ⟨hfits, hgrain, e⟩ <;>
    (rw [e] at h; cases h)
  · refine keepsPort_accept hinv hs rfl rfl ((streamOk_syn hrow).mpr ⟨hfits, fun hloaded => ?_⟩)
    simp [htakes, hgrain] at hloaded
  · have heq : accept (.syn f dth) (s.setMe s.me.loadStream) =
        s.setMe (s.me.loadStream.accepting (.syn f dth) (if (Instr.syn f dth).takesLock then .waitLock else .run)) := by
      rw [accept, State.setMe_setMe, State.me_setMe _ _ (State.active_lt_of_live hs.1)]
    rw [heq]
    exact keepsPort_accept hinv hs rfl rfl ((streamOk_syn hrow).mpr ⟨hfits, fun _ => ⟨by simp, by simp⟩⟩)

/-- The step of a SYN that waits for the lock. -/
theorem synWait_keepsPort {f : Format} {dth : Bool} {row : Row} (hrow : describe f = some row) (hs : s.Waiting)
    (hop : s.me.seq.op = some (.syn f dth)) (h : synWait (.syn f dth) s = .next t) : s.KeepsPort t := by
  obtain ⟨-, -, hstream, hout, hsent⟩ := (portOk_waitLock hs.2 hop).mp hinv.ok
  obtain ⟨hfits, hcur⟩ := (streamOk_syn hrow).mp hstream
  rcases synWait_cases (.syn f dth) s with ⟨-, e⟩ | ⟨-, -, e⟩ | ⟨hgrain, -, e⟩ <;> (rw [e] at h; cases h)
  · exact keepsPort_acquire hinv hs hop ⟨rfl, rfl, rfl, rfl⟩
      ((streamOk_syn hrow).mpr ⟨hfits, fun _ => ⟨by simp, by simp⟩⟩)
  · have hme : (synTokens s).me = { s.me with tok := s.me.seq.prev } :=
      State.me_setMe s _ (State.active_lt_of_live hs.1)
    exact keepsPort_complete hinv hs.1 (runsLocked_of_not_run (by simp [hs.2])) (.synTokens s) rfl (by rw [hme])
      (by rw [hme]; exact hout) (by rw [hme]; exact hsent)
  · exact keepsPort_acquire hinv hs hop ⟨rfl, rfl, rfl, rfl⟩
      ((streamOk_syn hrow).mpr ⟨hfits, fun _ => hcur (.inr hgrain)⟩)

end

/-- The acting port after its next byte write. -/
theorem me_writeNextByte {s : State} (hp : s.active < s.ports.length) {w : Word × Byte} {rest : List (Word × Byte)}
    (hout : s.me.seq.out = w :: rest) : (writeNextByte s).me = s.me.withOut rest := by
  rcases writeNextByte_cases s with ⟨hnil, -⟩ | ⟨a, b, rest', hcons, e⟩
  · simp [hnil] at hout
  · rw [hcons] at hout
    cases hout
    rw [e]
    exact me_setMe_with hp _ s.lock _

/-- The acting port after it has begun a `MemWrite` of some bytes. -/
theorem me_memWrite {s t : State} (hp : s.active < s.ports.length) {addr : Word} {b : Byte} {bytes : List Byte}
    (h : memWrite addr (b :: bytes) s = .next t) : t.me = s.me.withOut (byteWrites (addr + 1) bytes) := by
  rcases memWrite_cases addr (b :: bytes) s with ⟨a, -, e⟩ | ⟨-, e⟩ <;> (rw [e] at h; cases h)
  have hme := State.me_setMe s (s.me.withOut (byteWrites addr (b :: bytes))) hp
  rw [me_writeNextByte (by simpa using hp) (w := (addr, b)) (rest := byteWrites (addr + 1) bytes)
    (by rw [hme]; rfl), hme]
  rfl

section
variable {s t : State} (hinv : s.PortInv s.active)
include hinv

/-- The end of a sample, or of a byte write within it, keeps the invariant of the port of a SYN: `u` is the state in
which that byte is written. -/
theorem endSample_keepsPort {f : Format} {dth : Bool} {row : Row} {u : State} (hrow : describe f = some row)
    (hs : s.Running) (hop : s.me.seq.op = some (.syn f dth)) (ha : s.SameAround u) (hlock : u.lock = s.lock)
    (hseeded : u.seeded = s.seeded) (hfault : u.fault = s.fault) (hphase : u.me.seq.phase = s.me.seq.phase)
    (huop : u.me.seq.op = s.me.seq.op) (hcmd : u.me.cmd = s.me.cmd) (hsample : u.me.Sampling s.cfg row) :
    s.KeepsPort (endSample row u) := by
  obtain ⟨hscmd, -⟩ := (portOk_syn hs.2 hop hrow).mp hinv.ok
  have hhalted : s.halted = true → (endSample row u).halted = true := by simp [State.halted, hfault]
  have haround := ha.trans (.endSample row u)
  have hlock' : (endSample row u).lock = s.lock := by simp [hlock]
  have hseeded' : s.seeded = true → (endSample row u).seeded = true := by simp [hseeded]
  rcases endSample_cases row u with ⟨hout, e⟩ | ⟨-, e⟩
  · have hlt : u.active < u.ports.length := by rw [ha.active, ha.length]; exact State.active_lt_of_live hs.1
    have hme : (endSample row u).me = u.me.pastSample row.byteWidth u.dither.d := by
      rw [e]; exact State.me_setMe u _ hlt
    refine keepsPort_of_same_phase hinv haround hlock' hseeded' hhalted (by rw [hme]; exact hphase)
      (by rw [hme]; exact huop) ?_
    rw [hme]
    exact (portOk_syn (q := u.me.pastSample row.byteWidth u.dither.d) (hphase.trans hs.2) (huop.trans hop) hrow).mpr
      ⟨hcmd.trans hscmd, hsample.pastSample hout _⟩
  · have hme : (endSample row u).me = u.me := by rw [e]
    refine keepsPort_of_same_phase hinv haround hlock' hseeded' hhalted (by rw [hme]; exact hphase)
      (by rw [hme]; exact huop) ?_
    rw [hme]
    exact (portOk_syn (hphase.trans hs.2) (huop.trans hop) hrow).mpr ⟨hcmd.trans hscmd, hsample.synInv⟩

/-- The release after a sample that has its own lock (R137). -/
theorem releaseSample_keepsPort {f : Format} {dth : Bool} {row : Row} (hrow : describe f = some row) (hs : s.Running)
    (hop : s.me.seq.op = some (.syn f dth)) (hout : s.me.seq.out = []) : s.KeepsPort (releaseSample s) := by
  obtain ⟨hcmd, hsyn⟩ := (portOk_syn hs.2 hop hrow).mp hinv.ok
  have hme : (releaseSample s).me = (s.me.withSent false).withPhase .waitLock :=
    me_setMe_with (State.active_lt_of_live hs.1) _ _ s.mem
  refine keepsPort_of_release hinv ((runsLocked_of_run hs.2 hop).trans (Instr.takesLock_syn f dth)) (.releaseSample s)
    rfl (by rw [hme]; exact runsLocked_of_not_run (by simp)) ?_
  rw [hme]
  exact (portOk_waitLock (q := (s.me.withSent false).withPhase .waitLock) rfl hop).mpr ⟨hcmd, Instr.takesLock_syn f dth,
    (streamOk_syn hrow).mpr ⟨hsyn.fits, fun _ => ⟨hsyn.made, hsyn.cur⟩⟩, hout, rfl⟩

end

/-- A sample has at least one byte (R81). -/
theorem byteWidth_pos {f : Format} {row : Row} (hrow : describe f = some row) : 0 < row.byteWidth := by
  cases f <;> cases hrow <;> decide

end Sys2Proof.Machine

namespace Sys2Proof.Machine

section
variable {s t : State} (hinv : s.PortInv s.active)
include hinv

/-- The first byte of a sample of SYN. -/
theorem synBegin_keepsPort {f : Format} {dth : Bool} {row : Row} {u : State} (hrow : describe f = some row)
    (hs : s.Running) (hop : s.me.seq.op = some (.syn f dth)) (hmore : s.me.seq.sidx.toNat < s.me.samples)
    (hu : memWrite s.me.seq.cur (synBytes row dth s) (beginSample s) = .next u) : s.KeepsPort (endSample row u) := by
  have hlt := State.active_lt_of_live hs.1
  have hlen : (synBytes row dth s).length = row.byteWidth := length_pack s.cfg hrow _
  have hbegin : (beginSample s).me = s.me.withSent (s.cfg.lockGrain == .sample) :=
    (me_withGenerator _ _ _).trans (State.me_setMe s _ hlt)
  have hsampling := ((portOk_syn hs.2 hop hrow).mp hinv.ok).2.begins hmore hlen
  obtain ⟨b, bytes, hbytes⟩ : ∃ b bytes, synBytes row dth s = b :: bytes :=
    List.exists_cons_of_length_pos (hlen ▸ byteWidth_pos hrow)
  rw [hbytes] at hu hsampling
  have hme : u.me = (s.me.withSent (s.cfg.lockGrain == .sample)).withOut (byteWrites (s.me.seq.cur + 1) bytes) := by
    rw [me_memWrite (by simpa [beginSample] using hlt) hu, hbegin]
  obtain ⟨hseeded, hlock, -⟩ := memWrite_shared hu
  refine endSample_keepsPort hinv hrow hs hop ((State.SameAround.beginSample s).trans (.memWrite hu))
    (by simpa using hlock) (by simpa using hseeded) (by simpa using memWrite_fault hu) (by rw [hme]; rfl)
    (by rw [hme]; rfl) (by rw [hme]; rfl) ?_
  rw [hme]
  exact hsampling.tail rfl

/-- The step of a SYN in `RUN`. -/
theorem synRun_keepsPort {f : Format} {dth : Bool} {row : Row} (hrow : describe f = some row) (hs : s.Running)
    (hop : s.me.seq.op = some (.syn f dth)) (h : synRun row dth s = .next t) : s.KeepsPort t := by
  have hlt := State.active_lt_of_live hs.1
  rcases synRun_cases row dth s with ⟨hout, e⟩ | ⟨hout, -, e⟩ | ⟨-, -, hmore, e⟩ | ⟨hout, hsent, -, e⟩ |
    ⟨-, -, -, e⟩ <;> rw [e] at h
  · cases h
    obtain ⟨w, rest, hw⟩ := List.exists_cons_of_ne_nil hout
    have hme := me_writeNextByte hlt hw
    refine endSample_keepsPort hinv hrow hs hop (.writeNextByte s) (by simp) (by simp) (by simp) (by rw [hme]; rfl)
      (by rw [hme]; rfl) (by rw [hme]; rfl) ?_
    rw [hme]
    exact ((portOk_syn hs.2 hop hrow).mp hinv.ok).2.sampling hw
  · cases h
    exact releaseSample_keepsPort hinv hrow hs hop hout
  · obtain ⟨u, hu, rfl⟩ := thenNext_eq_next.mp h
    exact synBegin_keepsPort hinv hrow hs hop hmore hu
  · cases h
    have hme : (synTokens s).me = { s.me with tok := s.me.seq.prev } := State.me_setMe s _ hlt
    exact keepsPort_completeLocked hinv hs.1 ((runsLocked_of_run hs.2 hop).trans (Instr.takesLock_syn f dth))
      (.synTokens s) (by rw [hme]) (by rw [hme]; exact hout) (by rw [hme]; exact hsent)
  · cases h
    exact keepsPort_refl hinv

/-- The steps of SYN. -/
theorem synthesize_keepsPort {f : Format} {dth : Bool} (hop : s.me.seq.phase ≠ .idle → s.me.seq.op = some (.syn f dth))
    (h : synthesize (.syn f dth) f dth s = .next t) : s.KeepsPort t := by
  unfold synthesize at h
  cases hrow : describe f with
  | none =>
    rw [hrow] at h
    exact rejectSentinel_keepsPort hinv h
  | some row =>
    simp only [hrow] at h
    exact byPhase_elim (keepsPort_refl hinv) (fun hs e => synAccept_keepsPort hinv hrow hs e)
      (fun hs e => synWait_keepsPort hinv hrow hs (hop (by simp [hs.2])) e)
      (fun hs e => synRun_keepsPort hinv hrow hs (hop (by simp [hs.2])) e) h

/-- A byte write of the sample of ENC leaves its port as the byte writes that are left say. -/
theorem encByte_keepsPort {f : Format} {row : Row} (hrow : describe f = some row) (hs : s.Running)
    (hop : s.me.seq.op = some (.enc f)) (ha : s.SameAround t) (hlock : t.lock = s.lock) (hseeded : t.seeded = s.seeded)
    (hfault : t.fault = s.fault) {out : List (Word × Byte)} (hme : t.me = (s.me.withSent true).withOut out)
    (hout : ∀ w ∈ out, (w.1 - s.me.buf).toNat < row.byteWidth) : s.KeepsPort t := by
  obtain ⟨hcmd, -, -⟩ := (portOk_enc hs.2 hop hrow).mp hinv.ok
  refine keepsPort_of_same_phase hinv ha hlock (fun h => hseeded.trans h) (by simp [State.halted, hfault])
    (by rw [hme]; rfl) (by rw [hme]; rfl) ?_
  rw [hme]
  exact (portOk_enc (q := (s.me.withSent true).withOut out) hs.2 hop hrow).mpr ⟨hcmd, hout, fun _ => rfl⟩

/-- The run step of ENC. -/
theorem encRun_keepsPort {f : Format} {row : Row} (hrow : describe f = some row) (hs : s.Running)
    (hop : s.me.seq.op = some (.enc f)) (h : encRun row s = .next t) : s.KeepsPort t := by
  have hlt := State.active_lt_of_live hs.1
  obtain ⟨hcmd, howned, hbegun⟩ := (portOk_enc hs.2 hop hrow).mp hinv.ok
  rcases encRun_cases row s with ⟨hout, e⟩ | ⟨hout, -, e⟩ | ⟨hout, -, e⟩ <;> rw [e] at h
  · cases h
    obtain ⟨w, rest, hw⟩ := List.exists_cons_of_ne_nil hout
    have hsent : s.me.withSent true = s.me := by
      have := hbegun hout
      rw [Port.withSent, ← this]
    exact encByte_keepsPort hinv hrow hs hop (.writeNextByte s) (by simp) (by simp) (by simp)
      (by rw [me_writeNextByte hlt hw, hsent]) (fun v hv => howned v (by rw [hw]; exact List.mem_cons_of_mem w hv))
  · cases h
    have hme := State.me_setMe s (s.me.withSent false) hlt
    exact keepsPort_complete hinv hs.1 ((runsLocked_of_run hs.2 hop).trans (Instr.takesLock_enc f))
      (.setMe s _ s.lock s.mem) rfl (by rw [hme]; rfl) (by rw [hme]; exact hout) (by rw [hme]; rfl)
  · have hlen : (pack s.cfg row s.me.hs).length = row.byteWidth := length_pack s.cfg hrow _
    obtain ⟨b, bytes, hbytes⟩ : ∃ b bytes, pack s.cfg row s.me.hs = b :: bytes :=
      List.exists_cons_of_length_pos (hlen ▸ byteWidth_pos hrow)
    rw [hbytes] at h hlen
    obtain ⟨hseeded, hlock, -⟩ := memWrite_shared h
    refine encByte_keepsPort hinv hrow hs hop (State.SameAround.trans (.setMe s _ s.lock s.mem) (.memWrite h)) hlock
      hseeded (by simpa using memWrite_fault h)
      (by rw [me_memWrite (by simpa using hlt) h, State.me_setMe s _ hlt]) fun w hw => ?_
    have hw' : w ∈ byteWrites s.me.buf (b :: bytes) := List.mem_cons_of_mem _ hw
    obtain ⟨k, hk, ha, -⟩ := mem_byteWrites hw'
    rw [ha, add_sub_cancel_left, BitVec.toNat_ofNat]
    exact Nat.lt_of_le_of_lt (Nat.mod_le _ _) (hlen ▸ hk)

/-- The steps of ENC. -/
theorem encodeSample_keepsPort {f : Format} (hop : s.me.seq.phase ≠ .idle → s.me.seq.op = some (.enc f))
    (h : encodeSample (.enc f) f s = .next t) : s.KeepsPort t := by
  unfold encodeSample at h
  cases hrow : describe f with
  | none =>
    rw [hrow] at h
    exact rejectSentinel_keepsPort hinv h
  | some row =>
    simp only [hrow] at h
    refine byPhase_elim (keepsPort_refl hinv) (fun hs e => ?_) (fun _ e => by cases e; exact keepsPort_refl hinv)
      (fun hs e => encRun_keepsPort hinv hrow hs (hop (by simp [hs.2])) e) h
    cases e
    exact keepsPort_accept hinv hs rfl rfl (streamOk_enc.mpr ⟨row, hrow⟩)

/-- A step of a command keeps the invariant of the port that accepts it, or runs it. -/
theorem exec_keepsPort {i : Instr} (hop : s.me.seq.phase ≠ .idle → s.me.seq.op = some i) (h : exec i s = .next t) :
    s.KeepsPort t := by
  rcases i.family_cases with rfl | rfl | ⟨f, dth, rfl⟩ | ⟨k, rfl⟩ | ⟨f, rfl⟩ | ⟨f, rfl⟩
  · have hme : (seedGenerator s).me = s.me := me_withGenerator _ _ _
    exact lockedCommand_keepsPort hinv hop Instr.takesLock_init rfl rfl (.seedGenerator s)
      (fun _ => by rw [hme]; exact ⟨rfl, rfl⟩) h
  · refine lockedCommand_keepsPort hinv hop Instr.takesLock_draw rfl rfl (.drawToRes s) (fun hs => ?_) h
    have hme : (drawToRes s).me = { s.me with res := s.dither.value } :=
      (me_withGenerator _ _ _).trans (State.me_setMe s _ (State.active_lt_of_live hs.1))
    rw [hme]
    exact ⟨rfl, rfl⟩
  · exact synthesize_keepsPort hinv hop (exec_syn f dth s ▸ h)
  · refine plainCommand_keepsPort hinv (Instr.isSyn_vc k) (Instr.isEnc_vc k) (fun hs e => ?_) (exec_vc k s ▸ h)
    cases e
    exact volumeRun_keepsPort hinv hs (hop (by simp [hs.2])) _
  · refine plainCommand_keepsPort hinv (Instr.isSyn_fmtq f) (Instr.isEnc_fmtq f) (fun hs e => ?_) (exec_fmtq f s ▸ h)
    cases e
    exact answer_keepsPort hinv hs (hop (by simp [hs.2])) _
  · exact encodeSample_keepsPort hinv hop (exec_enc f s ▸ h)

end

end Sys2Proof.Machine

namespace Sys2Proof.Machine

/-! ## The invariant of the whole block -/

theorem lockedCommand_dead {s : State} (hl : s.live = false) (i : Instr) (effect : State → State) :
    lockedCommand i effect s = .next s := byPhase_dead hl _ _ _

theorem plainCommand_dead {s : State} (hl : s.live = false) (onAccept onRun : State → Outcome State) :
    plainCommand onAccept onRun s = .next s := byPhase_dead hl _ _ _

/-- No step of a command is enabled where the block cannot move (R173). -/
theorem exec_dead (i : Instr) {s : State} (hl : s.live = false) : exec i s = .next s := by
  rcases i.family_cases with rfl | rfl | ⟨f, dth, rfl⟩ | ⟨k, rfl⟩ | ⟨f, rfl⟩ | ⟨f, rfl⟩
  · exact lockedCommand_dead hl .init seedGenerator
  · exact lockedCommand_dead hl .draw drawToRes
  · rw [exec_syn, synthesize]
    cases describe f <;> exact byPhase_dead hl _ _ _
  · rw [exec_vc, volumeCommand, plainCommand_dead hl]
  · rw [exec_fmtq, queryFormat, plainCommand_dead hl]
  · rw [exec_enc, encodeSample]
    cases describe f <;> exact byPhase_dead hl _ _ _

@[simp] theorem volumeRun_curve_finfo (k : Curve) (vol : Word) (mx mn : Int) (s : State) :
    (volumeRun k (curve k vol mx mn) s).finfo = s.finfo := by
  rcases volumeRun_cases k (curve k vol mx mn) s with ⟨res, -, e⟩ | ⟨res, -, e⟩ | ⟨i, hi, -⟩
  · rw [e]; simp
  · rw [e]; simp
  · exact absurd hi (curve_ne_zeroDenominator k vol mx mn i)

/-- A step of a command leaves the fault registers alone, or raises a fault of its port and touches no port (R172). -/
theorem ExecStep.raise_cases {i : Instr} {s t : State} (h : ExecStep s i t) :
    (t.fault = s.fault ∧ t.finfo = s.finfo) ∨
      (s.live = true ∧ t.ports = s.ports ∧ ∃ c, t.fault = faultWord c s.active) := by
  cases h with
  | rejects _ info hs hi =>
    rw [raiseFatal_of_not_halted _ _ (State.not_halted_of_live hs.1)]
    exact .inr ⟨hs.1, rfl, _, rfl⟩
  | acquires _ load hs =>
    rcases acquire_cases i load s with ⟨-, e⟩ | ⟨-, -, -, e⟩ | ⟨-, -, e⟩ <;> rw [e]
    · exact .inl ⟨rfl, rfl⟩
    · rw [raiseFatal_of_not_halted _ _ (s := { s with lock := .held s.active }) (State.not_halted_of_live hs.1)]
      exact .inr ⟨hs.1, rfl, _, rfl⟩
    · exact .inl ⟨rfl, rfl⟩
  | seeds => exact .inl ⟨(completeLocked_fault _).trans (seedGenerator_fault s),
      (completeLocked_finfo _).trans (seedGenerator_finfo s)⟩
  | draws => exact .inl ⟨(completeLocked_fault _).trans (drawToRes_fault s),
      (completeLocked_finfo _).trans (drawToRes_finfo s)⟩
  | synBegins f dth row u _ _ _ hu =>
    obtain ⟨-, -, hfinfo, -⟩ := memWrite_shared hu
    exact .inl ⟨by simpa using memWrite_fault hu, by simpa using hfinfo⟩
  | encBegins f row _ _ _ _ hu =>
    obtain ⟨-, -, hfinfo, -⟩ := memWrite_shared hu
    exact .inl ⟨by simpa using memWrite_fault hu, hfinfo⟩
  | _ => exact .inl (by simp)

/-- The part of the invariant that looks at one port depends on the block's registers alone. -/
theorem State.PortInv.of_sameBlock {s t : State} {p : Nat} (h : s.SameBlock t) (hinv : s.PortInv p) : t.PortInv p := by
  obtain ⟨hok, hholds, hheld, hseed⟩ := hinv
  have hruns : (t.port p).runsLocked = (s.port p).runsLocked := h.of_port Port.runsLocked (fun _ => rfl) p
  have hports : portOk s.cfg (t.port p) = portOk s.cfg (s.port p) := h.of_port (portOk s.cfg) (fun _ => rfl) p
  refine ⟨?_, ?_, ?_, ?_⟩
  · rw [h.cfg, hports]; exact hok
  · rw [hruns, h.lock]; exact hholds
  · rw [hruns, h.lock, h.length, h.halted, h.seq]; exact hheld
  · rw [hruns, h.seeded, h.seq]; exact hseed

/-- A write of an operand register of an idle port keeps the port's part of the invariant. -/
theorem writeSlot_keepsPort {s : State} (hinv : s.PortInv s.active) (hs : s.Idle) (k : Slot) (v : Word) :
    s.KeepsPort (s.setMe (s.me.writeSlot k v)) := by
  have hme := State.me_setMe s (s.me.writeSlot k v) (State.active_lt_of_live hs.1)
  refine keepsPort_of_unlocked hinv (State.not_halted_of_live hs.1) (runsLocked_of_not_run (by simp [hs.2]))
    (.setMe s _ s.lock s.mem) rfl (by rw [hme]; exact runsLocked_of_not_run (by simp [hs.2])) ?_
  rw [hme, portOk_idle (by simp [hs.2])]
  simpa using (portOk_idle hs.2).mp hinv.ok

/-- Every agent's step keeps what the invariant says of each port. -/
theorem AgentStep.portInv {s t : State} (h : AgentStep s t) (hinv : ∀ p, s.PortInv p) (p : Nat) : t.PortInv p := by
  cases h with
  | same h => exact (hinv p).of_sameBlock h
  | raises u h hp hh c info ht =>
    have hu := fun q => (hinv q).of_sameBlock h
    rw [ht]
    exact (keepsPort_raiseFatal (hu _) c info).portInv (.raiseFatal c info u) hu
      (fun hs => (raiseFatal_seeded c info u).trans hs) (fun _ => raiseFatal_halted c info u) p
  | writes u h hidle k v ht =>
    have hu := fun q => (hinv q).of_sameBlock h
    rw [ht]
    exact (writeSlot_keepsPort (hu _) hidle k v).portInv (.setMe u _ u.lock u.mem) hu id id p
  | runs u h i hop ht =>
    have hu := fun q => (hinv q).of_sameBlock h
    have he := exec_step ht
    cases hl : u.live with
    | false =>
      rw [exec_dead i hl] at ht
      cases ht
      exact hu p
    | true =>
      exact (exec_keepsPort (hu _) hop ht).portInv he.sameAround hu he.seeded
        (fun hh => by simp [State.not_halted_of_live hl] at hh) p

/-- Every agent's step keeps the fault registers' part of the invariant. -/
theorem AgentStep.faultOk {s t : State} (h : AgentStep s t) (hs : faultOk s = true) : faultOk t = true := by
  rw [faultOk_iff] at hs ⊢
  cases h with
  | same h => rw [h.fault, h.finfo, h.length]; exact hs
  | raises u h hp hh c info ht =>
    rw [ht, raiseFatal_of_not_halted c info hh]
    exact .inr ⟨u.active, hp, c, rfl⟩
  | writes u h hidle k v ht =>
    rw [ht, (State.SameAround.setMe u (u.me.writeSlot k v) u.lock u.mem).length, State.setMe_fault, State.setMe_finfo]
    rw [h.fault, h.finfo, h.length]; exact hs
  | runs u h i hop ht =>
    have he := exec_step ht
    rw [he.sameAround.length]
    rcases he.raise_cases with ⟨hf, hi⟩ | ⟨hl, -, c, hf⟩
    · rw [hf, hi, h.fault, h.finfo, h.length]; exact hs
    · exact .inr ⟨u.active, State.active_lt_of_live hl, c, hf⟩

/-- Every agent's step keeps the diagnostic register's part of the invariant. -/
theorem AgentStep.diagOk {s t : State} (h : AgentStep s t) (hs : diagOk s = true) : diagOk t = true := by
  rw [diagOk_iff] at hs ⊢
  cases h with
  | same h => rw [h.diagSrc, h.length]; exact hs
  | raises u h hp hh c info ht =>
    rw [ht, raiseFatal_diagSrc, raiseFatal_ports, h.diagSrc, h.length]; exact hs
  | writes u h hidle k v ht =>
    rw [ht, (State.SameAround.setMe u (u.me.writeSlot k v) u.lock u.mem).length, State.setMe_diagSrc,
      h.diagSrc, h.length]
    exact hs
  | runs u h i hop ht =>
    have he := exec_step ht
    rw [he.sameAround.length]
    rcases he.diag_cases with ⟨-, hd⟩ | ⟨hl, -, k, hd⟩
    · rw [hd, h.diagSrc, h.length]; exact hs
    · exact .inr ⟨u.active, State.active_lt_of_live hl, k, hd⟩

/-- A step that ends in a halted block leaves every sequencer alone (R172, R173). -/
theorem AgentStep.seq_of_halted {s t : State} (h : AgentStep s t) (ht : t.halted = true) (p : Nat) :
    (t.port p).seq = (s.port p).seq := by
  cases h with
  | same h => exact h.seq p
  | raises u h hp hh c info e =>
    rw [← h.seq p, State.port, e, raiseFatal_ports]
    rfl
  | writes u h hidle k v e =>
    have hh : u.halted = true := by rw [e] at ht; exact ht
    simp [State.not_halted_of_live hidle.1] at hh
  | runs u h i hop e =>
    rw [← h.seq p]
    cases hl : u.live with
    | false =>
      rw [exec_dead i hl] at e
      cases e
      rfl
    | true =>
      rcases (exec_step e).raise_cases with ⟨hf, -⟩ | ⟨-, hports, -⟩
      · have hh : u.halted = true := by rw [State.halted, ← hf]; exact ht
        simp [State.not_halted_of_live hl] at hh
      · rw [State.port, hports]
        rfl

/-- A step writes at most one byte, so it keeps memory's canonical form. -/
theorem step_keeps_mem_wf {s t : State} (h : step s = .next t) (hs : Memory.wf s.mem) : Memory.wf t.mem := by
  rcases stepWritesAtMostOneByte s t h with e | ⟨p, a, b, rest, -, -, -, -, e⟩ | ⟨p, a, b, rest, -, -, -, e⟩ <;> rw [e]
  · exact hs
  · exact Memory.writeByte_wf hs a.isLt
  · exact Memory.writeByte_wf hs a.isLt

/-- A step that halts the block falls between no two byte writes of a sample, and a halted block moves in none. -/
theorem step_keeps_wholeOk {s t : State} (h : step s = .next t) (hs : wholeOk s = true) : wholeOk t = true := by
  rw [wholeOk_iff] at hs ⊢
  intro ht p
  rw [(step_agentStep h).seq_of_halted ht p]
  cases hh : s.halted with
  | true => exact hs hh p
  | false => exact midSample_eq_false.mp (step_keeps_samples_whole h hh ht) p

/-- Settles O56: each part of the invariant is kept by every step an agent can take; what it says of the ports is kept
port by port, the port that moves by the operations its command is made of, every other because the step leaves it
alone. -/
theorem stepKeepsTheInvariant : Obligations.StepKeepsTheInvariant := by
  intro s t hinv hstep
  obtain ⟨hmem, hports, hfault, hdiag, hwhole⟩ := inv_iff.mp hinv
  have hagent := step_agentStep hstep
  exact inv_iff.mpr ⟨step_keeps_mem_wf hstep hmem, hagent.portInv hports, hagent.faultOk hfault, hagent.diagOk hdiag,
    step_keeps_wholeOk hstep hwhole⟩

end Sys2Proof.Machine

namespace Sys2Proof.Machine

/-! ## A SYN or an ENC with a concrete format, phase by phase -/

theorem exec_syn_idle {s : State} {f : Format} {row : Row} (dth : Bool) (hrow : describe f = some row) (hs : s.Idle) :
    exec (.syn f dth) s = synAccept (.syn f dth) row s := by
  rw [exec_syn, synthesize, hrow]
  exact byPhase_idle hs.1 hs.2 _ _ _

theorem exec_syn_running {s : State} {f : Format} {row : Row} (dth : Bool) (hrow : describe f = some row)
    (hs : s.Running) : exec (.syn f dth) s = synRun row dth s := by
  rw [exec_syn, synthesize, hrow]
  exact byPhase_run hs.1 hs.2 _ _ _

theorem exec_enc_running {s : State} {f : Format} {row : Row} (hrow : describe f = some row) (hs : s.Running) :
    exec (.enc f) s = encRun row s := by
  rw [exec_enc, encodeSample, hrow]
  exact byPhase_run hs.1 hs.2 _ _ _

/-- Settles O26: of the cases of the accepting step, only the refusal is left where the range does not fit. -/
theorem wrappingRangeIsRefused : Obligations.WrappingRangeIsRefused := by
  intro f dth row s hrow hs hwraps
  have hno : s.me.rangeFits row.byteWidth = false := decide_eq_false (Nat.not_le.mpr hwraps)
  rw [exec_syn_idle dth hrow hs]
  rcases synAccept_cases (.syn f dth) row s with ⟨-, e⟩ | ⟨hfits, -⟩ | ⟨hfits, -⟩
  · exact e
  · rw [hno] at hfits; cases hfits
  · rw [hno] at hfits; cases hfits

/-! ## A `MemWrite` that the platform does not admit -/

/-- A `MemWrite` is stuck at the first of its addresses that the platform does not admit (R49, R186). -/
theorem memWrite_stuck {addr : Word} {bytes : List Byte} {s : State} {k : Nat} (hk : k < bytes.length)
    (hbelow : s.Admits addr k) (hat : admitted s.platform (addr + BitVec.ofNat 64 k) = false) :
    memWrite addr bytes s = .fault (.stuck (addr + BitVec.ofNat 64 k)) := by
  rw [memWrite, firstNotAdmitted_some s.platform addr bytes.length k hk hbelow hat]

/-- A SYN with a sample to make begins it (R106). -/
theorem synRun_begins {row : Row} {dth : Bool} {s : State} (hs : s.BetweenSamples)
    (hmore : s.me.seq.sidx.toNat < s.me.samples) : synRun row dth s =
      thenNext (endSample row) (memWrite s.me.seq.cur (synBytes row dth s) (beginSample s)) := by
  obtain ⟨-, hout, hsent⟩ := hs
  rcases synRun_cases row dth s with ⟨ho, -⟩ | ⟨-, hse, -⟩ | ⟨-, -, -, e⟩ | ⟨-, -, hdone, -⟩ | ⟨-, -, hpast, -⟩
  · exact absurd hout ho
  · rw [hsent] at hse; cases hse
  · exact e
  · omega
  · omega

/-- An ENC that has no `MemWrite` begun begins it (R134). -/
theorem encRun_begins {row : Row} {s : State} (hs : s.BetweenSamples) : encRun row s =
    memWrite s.me.buf (pack s.cfg row s.me.hs) (s.setMe (s.me.withSent true)) := by
  obtain ⟨-, hout, hsent⟩ := hs
  rcases encRun_cases row s with ⟨ho, -⟩ | ⟨-, hse, -⟩ | ⟨-, -, e⟩
  · exact absurd hout ho
  · rw [hsent] at hse; cases hse
  · exact e

/-- Settles O30: the step begins a `MemWrite` of `W` bytes, and that is stuck. -/
theorem unadmittedWriteIsStuck : Obligations.UnadmittedWriteIsStuck := by
  intro f dth row s k hrow hs hk
  constructor
  · intro hmore hbelow hat
    have hlen : k < (synBytes row dth s).length := by rwa [synBytes, length_pack s.cfg hrow]
    rw [exec_syn_running dth hrow hs.1, synRun_begins hs hmore, memWrite_stuck (s := beginSample s) hlen hbelow hat]
    rfl
  · intro hbelow hat
    rw [exec_enc_running hrow hs.1, encRun_begins hs]
    exact memWrite_stuck (s := s.setMe (s.me.withSent true)) (by rwa [length_pack s.cfg hrow]) hbelow hat

/-! ## What a `MemWrite` leaves in memory -/

theorem ofNat_succ_add (addr : Word) (k : Nat) : addr + 1 + BitVec.ofNat 64 k = addr + BitVec.ofNat 64 (k + 1) := by
  rw [BitVec.ofNat_add, BitVec.add_assoc, BitVec.add_comm (1 : Word)]
  rfl

/-- A `MemWrite` leaves alone every byte that is none of its own (R42). -/
theorem sameBytesOutside_writeBytes (m : Memory) (addr : Word) (bytes : List Byte) :
    SameBytesOutside m (m.writeBytes addr bytes) addr bytes.length := by
  induction bytes generalizing m addr with
  | nil => exact fun _ _ => rfl
  | cons b rest ih =>
    intro a ha
    have hfirst : a ≠ addr.toNat := by simpa using ha 0 (by simp)
    have hrest : ∀ k, k < rest.length → a ≠ (addr + 1 + BitVec.ofNat 64 k).toNat := fun k hk => by
      rw [ofNat_succ_add]
      exact ha (k + 1) (by simpa using hk)
    exact (ih (m.writeByte addr.toNat b) (addr + 1) a hrest).trans
      (Memory.readByte_writeByte_other m addr.toNat a b hfirst)

/-- Fewer than `2^64` addresses that follow one another do not come back to the one before them. -/
theorem toNat_ne_succ_add {addr : Word} {k : Nat} (hk : k + 1 < 2 ^ 64) :
    addr.toNat ≠ (addr + 1 + BitVec.ofNat 64 k).toNat := by
  rw [ofNat_succ_add]
  bv_omega

/-- The bytes of a `MemWrite` of at most the whole space read back from where it wrote them (R42, R50). -/
theorem readByte_writeBytes (m : Memory) (addr : Word) (bytes : List Byte) (hlen : bytes.length ≤ 2 ^ 64) (k : Nat)
    (hk : k < bytes.length) : (m.writeBytes addr bytes).readByte (addr + BitVec.ofNat 64 k).toNat = bytes[k]? := by
  induction bytes generalizing m addr k with
  | nil => simp at hk
  | cons b rest ih =>
    rw [List.length_cons] at hlen hk
    cases k with
    | zero =>
      have hkept := sameBytesOutside_writeBytes (m.writeByte addr.toNat b) (addr + 1) rest addr.toNat
        fun j hj => toNat_ne_succ_add (by omega)
      simpa [Memory.writeBytes, Memory.readByte_writeByte_same] using hkept
    | succ k =>
      rw [← ofNat_succ_add]
      exact ih (m.writeByte addr.toNat b) (addr + 1) (by omega) k (by omega)

/-- While a `MemWrite` goes on, memory holds the bytes written so far and the others are left (R46). -/
theorem writeNextByte_iterate {s : State} {addr : Word} {bytes : List Byte} (j : Nat)
    (hp : s.active < s.ports.length) (hout : s.me.seq.out = byteWrites addr bytes) (hj : j ≤ bytes.length) :
    writeNextByte^[j] s = { s.setMe (s.me.withOut ((byteWrites addr bytes).drop j)) with
      mem := Memory.writeBytes s.mem addr (bytes.take j) } := by
  induction j generalizing s addr bytes with
  | zero =>
    have hsame : s.me.withOut (byteWrites addr bytes) = s.me := by rw [← hout]; rfl
    have hports : s.setMe s.me = s := by rw [State.setMe, State.setPort, State.me, set_port_self]
    rw [List.drop_zero, hsame, hports]
    rfl
  | succ j ih =>
    obtain _ | ⟨b, rest⟩ := bytes
    · simp at hj
    · have hnext : writeNextByte s = { s.setMe (s.me.withOut (byteWrites (addr + 1) rest)) with
          mem := Memory.writeByte s.mem addr.toNat b } := by
        rw [writeNextByte, hout]
        rfl
      have hme : (writeNextByte s).me = s.me.withOut (byteWrites (addr + 1) rest) := me_writeNextByte hp hout
      have hlen := (State.SameAround.writeNextByte s).length
      rw [Function.iterate_succ_apply, ih (by rwa [writeNextByte_active, hlen]) (by rw [hme]; rfl) (by simpa using hj),
        hme, hnext]
      simp [State.setMe, State.setPort, Port.withOut, byteWrites, Memory.writeBytes]

/-- Settles O31: by induction on the bytes, and on the number of byte writes performed. -/
theorem writtenBytesReadBack : Obligations.WrittenBytesReadBack :=
  ⟨fun m addr bytes hlen => ⟨readByte_writeBytes m addr bytes hlen, sameBytesOutside_writeBytes m addr bytes⟩,
    fun _ j _ _ hp hout hj => writeNextByte_iterate j hp hout hj⟩

/-! ## Which sequencer writes which byte -/

/-- The next byte write of a port that has some left lies in its buffer (R49). -/
theorem State.PortInv.owns_left {s : State} {p : Nat} {w : Word × Byte} {rest : List (Word × Byte)}
    (hinv : s.PortInv p) (hout : (s.port p).seq.out = w :: rest) : (s.port p).owns w.1 = true := by
  have hok := hinv.ok
  simp only [portOk, writesOk, Bool.and_eq_true, List.all_eq_true] at hok
  obtain ⟨⟨-, howned, -⟩, -⟩ := hok
  exact howned w (by simp [hout])

/-- A step of the SYN that the acting port runs, with no byte write left, leaves memory alone, or the port has a sample
still to make (R105). -/
theorem synStep_mem_or_more {f : Format} {dth : Bool} {row : Row} {s t : State} (hrow : describe f = some row)
    (hs : s.Running) (hout : s.me.seq.out = []) (h : exec (.syn f dth) s = .next t) :
    t.mem = s.mem ∨ s.me.seq.sidx.toNat < s.me.samples := by
  rw [exec_syn_running dth hrow hs] at h
  rcases synRun_cases row dth s with ⟨ho, -⟩ | ⟨-, -, e⟩ | ⟨-, -, hmore, -⟩ | ⟨-, -, -, e⟩ | ⟨-, -, -, e⟩
  · exact absurd hout ho
  · rw [e] at h; cases h; exact .inl (releaseSample_mem s)
  · exact .inr hmore
  · rw [e] at h; cases h; exact .inl rfl
  · rw [e] at h; cases h; exact .inl rfl

/-- A port that runs a SYN or an ENC runs it with a concrete format (R122 to R124). -/
theorem exists_row_of_run {cfg : Config.Params} {q : Port} {i : Instr} (hok : portOk cfg q = true)
    (hp : q.seq.phase = .run) (hop : q.seq.op = some i) (hwrites : i.isSyn = true ∨ i.isEnc = true) :
    ∃ row, describe i.format = some row := by
  obtain ⟨-, hstream, -⟩ := (portOk_run hp hop).mp hok
  rw [streamOk, if_pos (by simpa using hwrites)] at hstream
  cases hrow : describe i.format with
  | none => simp [hrow] at hstream
  | some row => exact ⟨row, rfl⟩

/-- A command that is neither a SYN nor an ENC has no byte to write. -/
theorem not_mem_nextWrites {s : State} {p : Nat} {i : Instr} {w : Word × Byte} (hop : (s.port p).seq.op = some i)
    (hout : (s.port p).seq.out = []) (hsyn : i.isSyn = false) (henc : i.isEnc = false) : w ∉ s.nextWrites p := by
  simp only [State.nextWrites, hop, hout, hsyn, henc]
  cases describe i.format <;> exact List.not_mem_nil

/-- The byte writes that a SYN begins a sample with, or an ENC its `MemWrite`, lie in its buffer (R49, R125). A SYN that
has made all its samples has none there, and its step leaves memory alone. -/
theorem owns_begun {s t : State} {i : Instr} {w : Word × Byte} (hinv : s.PortInv s.active) (hs : s.Running)
    (hop : s.me.seq.op = some i) (hout : s.me.seq.out = []) (h : exec i s = .next t)
    (hw : w ∈ s.nextWrites s.active) : t.mem = s.mem ∨ s.me.owns w.1 = true := by
  have hrow := exists_row_of_run hinv.ok hs.2 hop
  rcases i.family_cases with rfl | rfl | ⟨f, dth, rfl⟩ | ⟨k, rfl⟩ | ⟨f, rfl⟩ | ⟨f, rfl⟩
  · exact absurd hw (not_mem_nextWrites hop hout Instr.isSyn_init Instr.isEnc_init)
  · exact absurd hw (not_mem_nextWrites hop hout Instr.isSyn_draw Instr.isEnc_draw)
  · obtain ⟨row, hrow⟩ := hrow (.inl (Instr.isSyn_syn f dth))
    rw [Instr.format_syn] at hrow
    rw [nextWrites_syn hout hop hrow] at hw
    obtain ⟨k, hk, ha, -⟩ := mem_byteWrites hw
    rw [synBytes, length_pack _ hrow] at hk
    have hsyn := ((portOk_syn hs.2 hop hrow).mp hinv.ok).2
    refine (synStep_mem_or_more hrow hs hout h).imp_right fun hmore => (owns_syn hop hrow w.1).mpr ?_
    rw [ha]
    exact sample_byte_owned hmore hsyn.cur hk
  · exact absurd hw (not_mem_nextWrites hop hout (Instr.isSyn_vc k) (Instr.isEnc_vc k))
  · exact absurd hw (not_mem_nextWrites hop hout (Instr.isSyn_fmtq f) (Instr.isEnc_fmtq f))
  · obtain ⟨row, hrow⟩ := hrow (.inr (Instr.isEnc_enc f))
    rw [Instr.format_enc] at hrow
    rw [nextWrites_enc hout hop hrow] at hw
    obtain ⟨k, hk, ha, -⟩ := mem_byteWrites hw
    rw [length_pack _ hrow] at hk
    refine .inr ((owns_enc hop hrow w.1).mpr ?_)
    rw [ha, State.me, add_sub_cancel_left, BitVec.toNat_ofNat]
    exact Nat.lt_of_le_of_lt (Nat.mod_le _ _) hk

/-- A step of the command that a port runs leaves memory alone, or writes one byte, which lies in the buffer of that
command. -/
theorem exec_writes_own {s t : State} {i : Instr} (hinv : s.PortInv s.active) (hop : s.me.seq.op = some i)
    (h : exec i s = .next t) :
    t.mem = s.mem ∨ ∃ w : Word × Byte, s.me.owns w.1 = true ∧ t.mem = Memory.writeByte s.mem w.1.toNat w.2 := by
  rcases (exec_step h).mem_cases with hm | ⟨hs, hwrites⟩
  · exact .inl hm
  · obtain ⟨w, rest, hnext, hw⟩ := hwrites hop
    cases hout : s.me.seq.out with
    | nil =>
      exact (owns_begun hinv hs hop hout h (by simp [hnext])).imp_right fun howns => ⟨w, howns, hw.mem⟩
    | cons v left =>
      obtain ⟨rfl, -⟩ := List.cons.inj ((nextWrites_of_out hout).symm.trans hnext)
      exact .inr ⟨v, hinv.owns_left hout, hw.mem⟩

/-- A sequencer writes only in the buffer of its own port. -/
theorem sequencerAct_writes_own {s t : State} {p : Nat} (hinv : s.PortInv p) (h : sequencerAct p s = .next t) :
    t.mem = s.mem ∨
      ∃ w : Word × Byte, (s.port p).owns w.1 = true ∧ t.mem = Memory.writeByte s.mem w.1.toNat w.2 := by
  rcases sequencerAct_cases p s with ⟨e, -⟩ | ⟨i, -, hop, e⟩ <;> rw [e] at h
  · cases h; exact .inl rfl
  · exact exec_writes_own (s := s.actingAs p) (hinv.of_sameBlock (.actingAs s p)) hop h

/-- A byte written at an address in no buffer of a port leaves that buffer alone (R42). -/
theorem readByte_of_not_owned {s t : State} {q : Port} {a b : Word} {c : Byte} (ha : q.owns a = true)
    (hb : q.owns b = false) (hmem : t.mem = Memory.writeByte s.mem b.toNat c) :
    t.readByte a.toNat = s.readByte a.toNat := by
  have hne : a.toNat ≠ b.toNat := fun e => by
    rw [BitVec.eq_of_toNat_eq e, hb] at ha
    cases ha
  rw [State.readByte, hmem]
  exact Memory.readByte_writeByte_other s.mem b.toNat a.toNat c hne

/-- Settles O33: a byte is written by a host's store, which the premise keeps out of the buffer, or by another port's
sequencer, which writes in its own buffer. -/
theorem disjointBuffersAreUndisturbed : Obligations.DisjointBuffersAreUndisturbed := by
  intro s t g p a hinv hdisjoint howns hstores h hg
  obtain ⟨-, hports, -⟩ := inv_iff.mp hinv
  have hsame : t.mem = s.mem → t.readByte a.toNat = s.readByte a.toNat := fun e => by
    rw [State.readByte, State.readByte, e]
  rcases agentAct_cases g s with ⟨e, -⟩ | ⟨e, -, -⟩ <;> rw [e] at h
  · cases g with
    | host q =>
      rcases hostAct_mem_cases h with hm | ⟨r, b, c, rest, hprog, -, -, hmem⟩
      · exact hsame hm
      · exact readByte_of_not_owned howns (hstores r b c rest hprog) hmem
    | sequencer q =>
      have hqp : p ≠ q := fun e => hg (by rw [e])
      rcases sequencerAct_writes_own (hports q) h with hm | ⟨w, hw, hmem⟩
      · exact hsame hm
      · exact readByte_of_not_owned howns (hdisjoint q p w.1 hqp.symm hw) hmem
  · cases h; rfl

/-! ## Which steps move the generator and the lock -/

@[simp] theorem raiseFatal_dither (c : FatalCode) (info : Word) (s : State) :
    (raiseFatal c info s).dither = s.dither := by
  rcases raiseFatal_cases c info s with ⟨-, e⟩ | ⟨-, e⟩ <;> rw [e]

@[simp] theorem acquire_dither (i : Instr) (load : Port → Port) (s : State) :
    (acquire i load s).dither = s.dither := by
  rcases acquire_cases i load s with ⟨-, e⟩ | ⟨-, -, -, e⟩ | ⟨-, -, e⟩ <;> rw [e] <;> simp

@[simp] theorem volumeRun_dither (k : Curve) (r : CurveResult) (s : State) :
    (volumeRun k r s).dither = s.dither := by
  rcases volumeRun_cases k r s with ⟨res, -, e⟩ | ⟨res, -, e⟩ | ⟨i, -, e⟩ <;> rw [e] <;> simp

/-- The step that begins a `MemWrite` makes no draw. -/
theorem memWrite_dither {addr : Word} {bytes : List Byte} {s t : State} (h : memWrite addr bytes s = .next t) :
    t.dither = s.dither := by
  rcases memWrite_cases addr bytes s with ⟨a, -, e⟩ | ⟨-, e⟩ <;> (rw [e] at h; cases h)
  simp

/-- A command's step moves the generator only where it is the run step of INIT, DRAW or SYN (R95). -/
theorem ExecStep.dither_cases {i : Instr} {s t : State} (h : ExecStep s i t) :
    t.dither = s.dither ∨ (s.Running ∧ i.takesLock = true) := by
  cases h with
  | seeds hs => exact .inr ⟨hs, Instr.takesLock_init⟩
  | draws hs => exact .inr ⟨hs, Instr.takesLock_draw⟩
  | synBegins f dth row u hs => exact .inr ⟨hs, Instr.takesLock_syn f dth⟩
  | encBegins f row _ hs hout hrow hu => exact .inl (by simpa using memWrite_dither hu)
  | _ => exact .inl (by simp)

/-- The accepting step moves neither the generator nor the lock (R95); every other step starts from a busy port. -/
theorem ExecStep.generator_of_idle {i : Instr} {s t : State} (h : ExecStep s i t) (hs : s.me.seq.phase = .idle) :
    t.dither = s.dither ∧ t.lock = s.lock := by
  cases h with
  | stays => exact ⟨rfl, rfl⟩
  | rejects => exact ⟨raiseFatal_dither _ _ s, raiseFatal_lock _ _ s⟩
  | accepts => exact ⟨rfl, rfl⟩
  | acceptsStream => exact ⟨rfl, rfl⟩
  | _ => simp_all

/-- A register write moves neither the generator nor the lock: a command it issues is only accepted (R95). -/
theorem hostWrite_generator {p : Nat} {k : Slot} {v : Word} {s t : State} (h : hostWrite p k v s = .next t) :
    t.dither = s.dither ∧ t.lock = s.lock := by
  rcases hostWrite_cases p k v s with
    ⟨-, e⟩ | ⟨-, -, e⟩ | ⟨-, -, -, -, e⟩ | ⟨i, -, hb, -, -, e⟩ | ⟨-, -, -, e⟩ <;> rw [e] at h
  · cases h; exact ⟨rfl, rfl⟩
  · cases h; exact ⟨raiseFatal_dither _ _ _, raiseFatal_lock _ _ _⟩
  · cases h; exact ⟨raiseFatal_dither _ _ _, raiseFatal_lock _ _ _⟩
  · exact (exec_step h).generator_of_idle (by simpa [State.busy] using hb)
  · cases h; exact ⟨rfl, rfl⟩

/-- A host's action moves neither the generator nor the lock. -/
theorem hostAct_generator {p : Nat} {s t : State} (h : hostAct p s = .next t) :
    t.dither = s.dither ∧ t.lock = s.lock := by
  rcases hostAct_cases p s with ⟨-, e⟩ | ⟨k, v, rest, -, e⟩ | ⟨k, rest, -, e⟩ | ⟨rest, -, e⟩ | ⟨a, b, rest, -, e⟩ <;>
    rw [e] at h
  · cases h; exact ⟨rfl, rfl⟩
  · exact hostWrite_generator (s := s.withProg p rest) h
  · cases h; exact ⟨rfl, rfl⟩
  · cases h; split <;> exact ⟨rfl, rfl⟩
  · rcases hostStore_cases a b (s.withProg p rest) with ⟨-, e'⟩ | ⟨-, e'⟩ <;> (rw [e'] at h; cases h)
    exact ⟨rfl, rfl⟩

/-- A sequencer moves the generator only under the lock of its port, which no other port's sequencer takes or gives
back (R95). -/
theorem sequencerAct_generator {p : Nat} {s t : State} (hinv : s.PortInv p) (h : sequencerAct p s = .next t) :
    (t.dither ≠ s.dither → s.lock = .held p) ∧ ∀ q, q ≠ p → (t.lock = .held q ↔ s.lock = .held q) := by
  rcases sequencerAct_cases p s with ⟨e, -⟩ | ⟨i, -, hop, e⟩ <;> rw [e] at h
  · cases h; exact ⟨fun hne => absurd rfl hne, fun _ _ => .rfl⟩
  · have hacting := hinv.of_sameBlock (.actingAs s p)
    refine ⟨fun hne => ?_, (exec_keepsPort (s := s.actingAs p) hacting (fun _ => hop) h).lock⟩
    rcases (exec_step h).dither_cases with hd | ⟨⟨-, hrun⟩, htakes⟩
    · exact absurd hd hne
    · exact hinv.holds ((runsLocked_of_run hrun hop).trans htakes)

/-- Settles O58: a host moves neither the generator nor the lock, and the port of a sequencer that moves the generator
runs under the lock, so by the invariant it holds it. -/
theorem generatorMovesOnlyUnderTheLock : Obligations.GeneratorMovesOnlyUnderTheLock := by
  intro s t g hinv h
  obtain ⟨-, hports, -⟩ := inv_iff.mp hinv
  rcases agentAct_cases g s with ⟨e, -⟩ | ⟨e, -, -⟩ <;> rw [e] at h
  · cases g with
    | host p =>
      obtain ⟨hdither, hlock⟩ := hostAct_generator h
      exact ⟨fun hne => absurd hdither hne, fun _ _ _ => hlock⟩
    | sequencer p =>
      obtain ⟨hdither, hlock⟩ := sequencerAct_generator (hports p) h
      refine ⟨fun hne => ⟨p, rfl, hdither hne⟩, fun q hheld hq => ?_⟩
      have hqp : q ≠ p := fun e => hq (by rw [e])
      exact ((hlock q hqp).mpr hheld).trans hheld.symm
  · cases h; exact ⟨fun hne => absurd rfl hne, fun _ _ _ => rfl⟩

end Sys2Proof.Machine

namespace Sys2Proof

/-! ## The decoder, by the fields of a value -/

theorem Instr.fields_syn (f : Format) (dth : Bool) : (Instr.syn f dth).fields = .plain 0x3 f.code dth := by
  cases f <;> rfl

theorem Instr.fields_vc (k : Curve) : (Instr.vc k).fields = .plain 0x4 k.code false := by cases k <;> rfl

theorem Instr.fields_fmtq (f : Format) : (Instr.fmtq f).fields = .plain 0x5 f.code false := by cases f <;> rfl

theorem Instr.fields_enc (f : Format) : (Instr.enc f).fields = .plain 0x6 f.code false := by cases f <;> rfl

/-- A code stands for a curve exactly where it is that curve's code (R63). -/
theorem Curve.ofCode_eq_some {c : BitVec 4} {k : Curve} : Curve.ofCode c = some k ↔ k.code = c := by
  revert c
  cases k <;> decide

/-- The codes from 3 on stand for no curve (R63). -/
theorem Curve.ofCode_eq_none {c : BitVec 4} : Curve.ofCode c = none ↔ 2 < c.toNat := by
  revert c
  decide

/-- The fields of a command decode to it. -/
theorem decodeFields_fields (i : Instr) : decodeFields i.fields = .ok i := by
  rcases i.family_cases with rfl | rfl | ⟨f, dth, rfl⟩ | ⟨k, rfl⟩ | ⟨f, rfl⟩ | ⟨f, rfl⟩
  · rfl
  · rfl
  · simp [Instr.fields_syn, decodeFields, CommandFields.plain, ofCode_code]
  · simp only [Instr.fields_vc, decodeFields, CommandFields.plain, Curve.ofCode_eq_some.mpr rfl]
    rfl
  · simp [Instr.fields_fmtq, decodeFields, CommandFields.plain, ofCode_code]
  · simp [Instr.fields_enc, decodeFields, CommandFields.plain, ofCode_code]

/-- The conditions of R66, on the fields as numbers. -/
theorem CommandFields.wellFormed_eq_false {c : CommandFields} : c.wellFormed = false ↔
    c.high.toNat ≠ 0 ∨ c.opc.toNat = 0 ∨ 7 ≤ c.opc.toNat ∨ c.z.toNat ≠ 0 ∨ (c.dth = true ∧ c.opc.toNat ≠ 3) ∨
      ((c.opc.toNat = 1 ∨ c.opc.toNat = 2) ∧ c.sub.toNat ≠ 0) ∨ (c.opc.toNat = 4 ∧ 2 < c.sub.toNat) := by
  simp only [wellFormed, highHalfZero, reservedBitsZero, opcodeAssigned, ditherFlagInPlace, subZeroWhereUnused,
    curveAssigned, Bool.and_eq_false_iff, Bool.or_eq_false_iff, Bool.not_eq_false', beq_eq_false_iff_ne, ne_eq,
    Bool.or_eq_true, beq_iff_eq, decide_eq_false_iff_not, BitVec.toNat_eq]
  cases c.dth <;> simp <;> omega

/-- Fields are those of a command, or they are ill-formed and decode to an error: branch by branch of the decoder. -/
theorem fields_or_illFormed (c : CommandFields) :
    (∃ i : Instr, i.fields = c) ∨ (c.wellFormed = false ∧ ∃ e, decodeFields c = .error e) := by
  rw [CommandFields.wellFormed_eq_false]
  obtain ⟨high, opc, sub, dth, z⟩ := c
  by_cases hhigh : high = 0
  case neg => exact .inr ⟨by bv_omega, _, if_pos hhigh⟩
  by_cases hz : z = 0
  case neg => exact .inr ⟨by bv_omega, _, by rw [decodeFields, if_neg (not_not.mpr hhigh), if_pos hz]⟩
  subst hhigh hz
  by_cases hsyn : opc = 3
  case pos => exact .inl ⟨.syn (.ofCode sub) dth, by rw [Instr.fields_syn, code_ofCode, hsyn]; rfl⟩
  cases dth with
  | true =>
    refine .inr ⟨.inr (.inr (.inr (.inr (.inl ⟨rfl, BitVec.toNat_ne.mp hsyn⟩)))), .ditherFlagMisplaced, ?_⟩
    simp only [decodeFields, ne_eq, not_true_eq_false, hsyn, if_false, if_true]
  | false =>
    simp only [decodeFields, ne_eq, not_true_eq_false, hsyn, Bool.false_eq_true, if_false]
    split_ifs with hinit hsub hdraw hsub hvc hfmtq henc
    · exact .inl ⟨.init, by rw [hinit, hsub]; rfl⟩
    · exact .inr ⟨by bv_omega, _, rfl⟩
    · exact .inl ⟨.draw, by rw [hdraw, hsub]; rfl⟩
    · exact .inr ⟨by bv_omega, _, rfl⟩
    · cases hk : Curve.ofCode sub with
      | some k => exact .inl ⟨.vc k, by rw [Instr.fields_vc, Curve.ofCode_eq_some.mp hk, hvc]; rfl⟩
      | none =>
        have := Curve.ofCode_eq_none.mp hk
        exact .inr ⟨by bv_omega, _, rfl⟩
    · exact .inl ⟨.fmtq (.ofCode sub), by rw [Instr.fields_fmtq, code_ofCode, hfmtq]; rfl⟩
    · exact .inl ⟨.enc (.ofCode sub), by rw [Instr.fields_enc, code_ofCode, henc]; rfl⟩
    · exact .inr ⟨by bv_omega, _, rfl⟩

/-- A value decodes to a command exactly where its fields are that command's. -/
theorem decode_eq_ok {v : Word} {i : Instr} : decode v = .ok i ↔ i.fields = fieldsOf v := by
  unfold decode
  constructor
  · intro h
    rcases fields_or_illFormed (fieldsOf v) with ⟨j, hj⟩ | ⟨-, e, he⟩
    · rw [← hj, decodeFields_fields] at h
      cases h
      exact hj
    · rw [he] at h
      cases h
  · intro h
    rw [← h, decodeFields_fields]

/-- Settles O1: a value decodes to the command whose fields it has, and the fields of a value determine it. -/
theorem decodeAcceptsExactlyTheEncodings : Obligations.DecodeAcceptsExactlyTheEncodings := by
  intro v i
  rw [decode_eq_ok, ← fieldsOf_commandValue]
  exact ⟨fun h => (fieldsOf_injective h).symm, fun h => h ▸ rfl⟩

/-- Settles O3: each word of the table is the value of its command. -/
theorem exampleWordsDecode : Obligations.ExampleWordsDecode := by
  have hword (i : Instr) : decode (commandValue i) = .ok i := (decodeAcceptsExactlyTheEncodings _ i).mpr rfl
  exact ⟨hword .init, hword .draw, hword (.synS8 false), hword (.synS16Le true), hword (.synS32Be true),
    hword (.synAuto false), hword .vcFlat, hword .vcTaper, hword .vcSeg, hword .fmtqS243Be, hword .encU8⟩

/-- The fields of every command are well-formed (R66). -/
theorem wellFormed_fields (i : Instr) : i.fields.wellFormed = true := by
  rcases i.family_cases with rfl | rfl | ⟨f, dth, rfl⟩ | ⟨k, rfl⟩ | ⟨f, rfl⟩ | ⟨f, rfl⟩
  · rfl
  · rfl
  · cases f <;> cases dth <;> rfl
  · cases k <;> rfl
  · cases f <;> rfl
  · cases f <;> rfl

/-- A value is no command exactly where its fields are ill-formed. -/
theorem exists_decode_eq_error {v : Word} : (∃ e, decode v = .error e) ↔ (fieldsOf v).wellFormed = false := by
  unfold decode
  rcases fields_or_illFormed (fieldsOf v) with ⟨i, hi⟩ | ⟨hill, he⟩
  · rw [← hi, wellFormed_fields, decodeFields_fields]
    simp
  · exact iff_of_true he hill

/-- Settles O2: a value is no command where its fields are ill-formed, which are numbers cut from the value, and the
write of such a value ends at the check for an illegal word. -/
theorem illegalValuesAreThoseOfR66 : Obligations.IllegalValuesAreThoseOfR66 := by
  refine ⟨fun v => ?_, fun v hv => ?_, fun s p v e hh hb hd => ?_⟩
  · obtain ⟨hhigh, hopc, hsub, hdth, hz⟩ := fieldsOf_toNat v
    rw [exists_decode_eq_error, CommandFields.wellFormed_eq_false, hhigh, hopc, hsub, hdth, hz, decide_eq_true_eq]
  · cases hd : decode v with
    | error e => exact absurd hd (hv e)
    | ok i =>
      refine ⟨i, (decodeAcceptsExactlyTheEncodings v i).mp hd, fun j hj => ?_⟩
      have hj := (decodeAcceptsExactlyTheEncodings v j).mpr hj
      rw [hd] at hj
      cases hj
      rfl
  · have hno (i : Instr) : decode v ≠ .ok i := by rw [hd]; nofun
    rw [Machine.hostWrite_illegal hh hb hno, Machine.raiseFatal_of_not_halted _ _ (s := s.actingAs p) hh]
    rfl

end Sys2Proof

namespace Sys2Proof.Machine

/-! ## What a command's step can make of its port -/

/-- Only the sequencer of two ports differs: every register is the same. -/
def Port.OnlySeq (q r : Port) : Prop := r = { q with seq := r.seq }

theorem Port.OnlySeq.refl (q : Port) : q.OnlySeq q := rfl

theorem Port.OnlySeq.trans {q r u : Port} (h : q.OnlySeq r) (h' : r.OnlySeq u) : q.OnlySeq u := by
  unfold OnlySeq at *
  rw [h', h]

/-- Everything a command's step can make of the registers of its port: what it writes of them beside the sequencer, and
which byte writes it leaves to be performed (R65). -/
inductive PortStep (i : Instr) (q : Port) : Port → Prop
  /-- Only the sequencer moves. -/
  | keeps (x : Seq) (hx : i.isSyn = true ∨ i.isEnc = true ∨ x.out = q.seq.out) : PortStep i q { q with seq := x }
  /-- The accepting step (R96, R105, R140). -/
  | accepts (x : Seq) (hq : q.seq.phase = .idle) (hx : x.out = q.seq.out) :
      PortStep i q { q with cmd := commandValue i, seq := x }
  /-- The `done` step of SYN (R105). -/
  | returnsToken (v : Word) (x : Seq) (hi : i.isSyn = true) (hx : x.phase = .idle) :
      PortStep i q { q with tok := v, seq := x }
  /-- The run step of DRAW, VC or FMTQ (R83, R97, R140). -/
  | answers (v : Word) (x : Seq) (hi : i ≠ .init) (hsyn : i.isSyn = false) (henc : i.isEnc = false)
      (hx : x.out = q.seq.out) : PortStep i q { q with res := v, seq := x }

namespace PortStep

variable {i : Instr} {q r : Port}

theorem refl (i : Instr) (q : Port) : PortStep i q q := .keeps q.seq (.inr (.inr rfl))

/-- A step of SYN or ENC in which only the sequencer moves. -/
theorem of_onlySeq (hi : i.isSyn = true ∨ i.isEnc = true) (h : q.OnlySeq r) : PortStep i q r := by
  rw [h]
  exact .keeps r.seq (hi.imp_right .inl)

theorem operands (h : PortStep i q r) : q.SameOperands r := by
  cases h <;> exact ⟨rfl, rfl, rfl, rfl, rfl, rfl, rfl, rfl⟩

theorem cmd (h : PortStep i q r) (hq : q.seq.phase ≠ .idle) : r.cmd = q.cmd := by
  cases h with
  | accepts _ hidle => exact absurd hidle hq
  | _ => rfl

theorem tok_of_ne (h : PortStep i q r) (hr : r.tok ≠ q.tok) : r.seq.phase = .idle := by
  cases h with
  | returnsToken _ _ _ hx => exact hx
  | _ => exact absurd rfl hr

theorem tok (h : PortStep i q r) (hi : i.isSyn = false) : r.tok = q.tok := by
  cases h with
  | returnsToken _ _ hsyn => rw [hi] at hsyn; cases hsyn
  | _ => rfl

theorem res (h : PortStep i q r) (hi : i = .init ∨ i.isSyn = true ∨ i.isEnc = true) : r.res = q.res := by
  cases h with
  | answers _ _ hinit hsyn henc => simp [hinit, hsyn, henc] at hi
  | _ => rfl

theorem out (h : PortStep i q r) (hsyn : i.isSyn = false) (henc : i.isEnc = false) : r.seq.out = q.seq.out := by
  cases h with
  | keeps _ hx => simpa [hsyn, henc] using hx
  | accepts _ _ hx => exact hx
  | returnsToken _ _ hi => rw [hsyn] at hi; cases hi
  | answers _ _ _ _ _ hx => exact hx

end PortStep

/-! ### The shared operations -/

theorem writeNextByte_onlySeq {s : State} (hp : s.active < s.ports.length) : s.me.OnlySeq (writeNextByte s).me := by
  cases hout : s.me.seq.out with
  | nil => rw [writeNextByte, hout]; exact .refl _
  | cons w rest => rw [me_writeNextByte hp hout]; rfl

theorem memWrite_onlySeq {addr : Word} {bytes : List Byte} {s t : State} (hp : s.active < s.ports.length)
    (h : memWrite addr bytes s = .next t) : s.me.OnlySeq t.me := by
  rcases memWrite_cases addr bytes s with ⟨a, -, e⟩ | ⟨-, e⟩ <;> (rw [e] at h; cases h)
  have hme := State.me_setMe s (s.me.withOut (byteWrites addr bytes)) hp
  exact Port.OnlySeq.trans (by rw [hme]; rfl) (writeNextByte_onlySeq (by simpa using hp))

theorem endSample_onlySeq (row : Row) {s : State} (hp : s.active < s.ports.length) :
    s.me.OnlySeq (endSample row s).me := by
  rcases endSample_cases row s with ⟨-, e⟩ | ⟨-, e⟩ <;> rw [e]
  · rw [State.me_setMe s _ hp]; rfl
  · exact .refl _

theorem me_complete {s : State} (hp : s.active < s.ports.length) : (complete s).me = s.me.completed :=
  State.me_setMe s _ hp

theorem me_completeLocked {s : State} (hp : s.active < s.ports.length) : (completeLocked s).me = s.me.completed :=
  State.me_setMe s _ hp

/-- The accepting step, where the port that accepts differs at most in its stream. -/
theorem setMe_accepting_portStep {i : Instr} {s : State} {q : Port} {ph : Phase} (hs : s.Idle)
    (hq : s.me.OnlySeq q) (hout : q.seq.out = s.me.seq.out) : PortStep i s.me (s.setMe (q.accepting i ph)).me := by
  rw [State.me_setMe s _ (State.active_lt_of_live hs.1), hq]
  exact .accepts _ hs.2 hout

/-- The acquire step, where what is loaded is at most the stream. -/
theorem acquire_portStep {i : Instr} {load : Port → Port} {s : State} (hs : s.Waiting)
    (hload : s.me.OnlySeq (load s.me)) (hout : (load s.me).seq.out = s.me.seq.out) :
    PortStep i s.me (acquire i load s).me := by
  rcases acquire_cases i load s with ⟨-, e⟩ | ⟨-, -, -, e⟩ | ⟨-, -, e⟩ <;> rw [e]
  · exact .refl i _
  · rw [me_raiseFatal]; exact .refl i _
  · have hme : ({ s.setMe ((load s.me).withPhase .run) with lock := .held s.active } : State).me
        = (load s.me).withPhase .run := State.me_setMe s _ (State.active_lt_of_live hs.1)
    rw [hme, hload]
    exact .keeps _ (.inr (.inr hout))

/-! ### The steps of each family -/

section
variable {s t : State}

theorem lockedCommand_portStep {i : Instr} {effect : State → State}
    (hrun : s.Running → PortStep i s.me (completeLocked (effect s)).me) (h : lockedCommand i effect s = .next t) :
    PortStep i s.me t.me :=
  byPhase_elim (P := fun t => PortStep i s.me t.me) (.refl i _)
    (fun hs e => by cases e; exact setMe_accepting_portStep hs (.refl _) rfl)
    (fun hs e => by cases e; exact acquire_portStep hs (.refl _) rfl) (fun hs e => by cases e; exact hrun hs) h

theorem plainCommand_portStep {i : Instr} {onRun : State → Outcome State}
    (hrun : s.Running → onRun s = .next t → PortStep i s.me t.me)
    (h : plainCommand (fun s => .next (accept i s)) onRun s = .next t) : PortStep i s.me t.me := by
  rcases byPhase_cases s (fun s => .next (accept i s)) .next onRun with
    ⟨-, e⟩ | ⟨hl, hp, e⟩ | ⟨hl, hp, e⟩ | ⟨hl, hp, e⟩ <;> rw [plainCommand, e] at h
  · cases h; exact .refl i _
  · cases h; exact setMe_accepting_portStep ⟨hl, hp⟩ (.refl _) rfl
  · cases h; exact .refl i _
  · exact hrun ⟨hl, hp⟩ h

theorem rejectSentinel_portStep {i : Instr} {f : Format} (h : rejectSentinel f s = .next t) : PortStep i s.me t.me :=
  byPhase_elim (P := fun t => PortStep i s.me t.me) (.refl i _)
    (fun _ e => by cases e; rw [me_raiseFatal]; exact .refl i _) (fun _ e => by cases e; exact .refl i _)
    (fun _ e => by cases e; exact .refl i _) h

/-- The completing step of a command that writes `RES`, with or without a diagnostic. -/
theorem answer_portStep {i : Instr} {v : Word} (hi : i ≠ .init) (hsyn : i.isSyn = false) (henc : i.isEnc = false)
    (hs : s.Running) : PortStep i s.me (complete (writeRes v s)).me := by
  have hp := State.active_lt_of_live hs.1
  have hres : (writeRes v s).me = { s.me with res := v } := State.me_setMe s _ hp
  rw [me_complete (by simpa [writeRes] using hp), hres]
  exact .answers v _ hi hsyn henc rfl

theorem volumeRun_portStep {k : Curve} (hs : s.Running) (r : CurveResult) :
    PortStep (.vc k) s.me (volumeRun k r s).me := by
  have hvc : Instr.vc k ≠ .init := by cases k <;> nofun
  have hanswer (v : Word) := answer_portStep (v := v) hvc (Instr.isSyn_vc k) (Instr.isEnc_vc k) hs
  rcases volumeRun_cases k r s with ⟨res, -, e⟩ | ⟨res, -, e⟩ | ⟨i, -, e⟩ <;> rw [e]
  · exact hanswer res
  · exact hanswer res
  · rw [me_raiseFatal]; exact .refl _ _

theorem synAccept_portStep {f : Format} {dth : Bool} {row : Row} (hs : s.Idle)
    (h : synAccept (.syn f dth) row s = .next t) : PortStep (.syn f dth) s.me t.me := by
  rcases synAccept_cases (.syn f dth) row s with ⟨-, e⟩ | ⟨-, -, e⟩ | ⟨-, -, e⟩ <;> (rw [e] at h; cases h)
  · exact setMe_accepting_portStep hs (.refl _) rfl
  · have hload := State.me_setMe s s.me.loadStream (State.active_lt_of_live hs.1)
    rw [show accept (.syn f dth) (s.setMe s.me.loadStream) = s.setMe (s.me.loadStream.accepting (.syn f dth) _) by
      rw [accept, State.setMe_setMe, hload]]
    exact setMe_accepting_portStep hs rfl rfl

/-- The acting port of a SYN whose token has been returned (R105). -/
theorem me_synTokens (hp : s.active < s.ports.length) : (synTokens s).me = { s.me with tok := s.me.seq.prev } :=
  State.me_setMe s _ hp

theorem synWait_portStep {f : Format} {dth : Bool} (hs : s.Waiting) (h : synWait (.syn f dth) s = .next t) :
    PortStep (.syn f dth) s.me t.me := by
  rcases synWait_cases (.syn f dth) s with ⟨-, e⟩ | ⟨-, -, e⟩ | ⟨-, -, e⟩ <;> (rw [e] at h; cases h)
  · exact acquire_portStep hs rfl rfl
  · have hp := State.active_lt_of_live hs.1
    rw [me_complete (by simpa [synTokens] using hp), me_synTokens hp]
    exact .returnsToken _ _ (Instr.isSyn_syn f dth) rfl
  · exact acquire_portStep hs (.refl _) rfl

theorem synRun_portStep {f : Format} {dth : Bool} {row : Row} (hs : s.Running) (h : synRun row dth s = .next t) :
    PortStep (.syn f dth) s.me t.me := by
  have hp := State.active_lt_of_live hs.1
  have hsyn := Instr.isSyn_syn f dth
  rcases synRun_cases row dth s with ⟨-, e⟩ | ⟨-, -, e⟩ | ⟨-, -, -, e⟩ | ⟨-, -, -, e⟩ | ⟨-, -, -, e⟩ <;> rw [e] at h
  · cases h
    have hlen := (State.SameAround.writeNextByte s).length
    exact .of_onlySeq (.inl hsyn) ((writeNextByte_onlySeq hp).trans (endSample_onlySeq row (by simpa [hlen] using hp)))
  · cases h
    refine .of_onlySeq (.inl hsyn) ?_
    rw [show (releaseSample s).me = (s.me.withSent false).withPhase .waitLock from State.me_setMe s _ hp]
    rfl
  · obtain ⟨u, hu, rfl⟩ := thenNext_eq_next.mp h
    have hbegin : (beginSample s).me = s.me.withSent (s.cfg.lockGrain == .sample) :=
      (me_withGenerator _ _ _).trans (State.me_setMe s _ hp)
    have hp' : (beginSample s).active < (beginSample s).ports.length := by simpa [beginSample] using hp
    have ha := State.SameAround.memWrite hu
    have hdraw : s.me.OnlySeq (beginSample s).me := by rw [hbegin]; rfl
    exact .of_onlySeq (.inl hsyn) (hdraw.trans ((memWrite_onlySeq hp' hu).trans
      (endSample_onlySeq row (by rw [ha.active, ha.length]; exact hp'))))
  · cases h
    rw [me_completeLocked (by simpa [synTokens] using hp), me_synTokens hp]
    exact .returnsToken _ _ hsyn rfl
  · cases h; exact .refl _ _

theorem encRun_portStep {f : Format} {row : Row} (hs : s.Running) (h : encRun row s = .next t) :
    PortStep (.enc f) s.me t.me := by
  have hp := State.active_lt_of_live hs.1
  refine .of_onlySeq (.inr (Instr.isEnc_enc f)) ?_
  have hsent (sent : Bool) : s.me.OnlySeq (s.setMe (s.me.withSent sent)).me := by rw [State.me_setMe s _ hp]; rfl
  rcases encRun_cases row s with ⟨-, e⟩ | ⟨-, -, e⟩ | ⟨-, -, e⟩ <;> rw [e] at h
  · cases h; exact writeNextByte_onlySeq hp
  · cases h
    refine (hsent false).trans ?_
    rw [me_complete (by simpa using hp)]
    rfl
  · exact (hsent true).trans (memWrite_onlySeq (by simpa using hp) h)

theorem synthesize_portStep {f : Format} {dth : Bool} (h : synthesize (.syn f dth) f dth s = .next t) :
    PortStep (.syn f dth) s.me t.me := by
  unfold synthesize at h
  cases hrow : describe f with
  | none =>
    rw [hrow] at h
    exact rejectSentinel_portStep h
  | some row =>
    simp only [hrow] at h
    exact byPhase_elim (P := fun t => PortStep _ s.me t.me) (.refl _ _) synAccept_portStep synWait_portStep
      synRun_portStep h

theorem encodeSample_portStep {f : Format} (h : encodeSample (.enc f) f s = .next t) : PortStep (.enc f) s.me t.me := by
  unfold encodeSample at h
  cases hrow : describe f with
  | none =>
    rw [hrow] at h
    exact rejectSentinel_portStep h
  | some row =>
    simp only [hrow] at h
    exact plainCommand_portStep encRun_portStep h

/-- A command's step changes its port in one of the ways of `PortStep`. -/
theorem exec_portStep {i : Instr} (h : exec i s = .next t) : PortStep i s.me t.me := by
  rcases i.family_cases with rfl | rfl | ⟨f, dth, rfl⟩ | ⟨k, rfl⟩ | ⟨f, rfl⟩ | ⟨f, rfl⟩
  · refine lockedCommand_portStep (fun hs => ?_) h
    have hseed : (seedGenerator s).me = s.me := me_withGenerator _ _ _
    have ha := State.SameAround.seedGenerator s
    rw [me_completeLocked (by rw [ha.active, ha.length]; exact State.active_lt_of_live hs.1), hseed]
    exact .keeps _ (.inr (.inr rfl))
  · refine lockedCommand_portStep (fun hs => ?_) h
    have hp := State.active_lt_of_live hs.1
    have ha := State.SameAround.drawToRes s
    have hdraw : (drawToRes s).me = { s.me with res := s.dither.value } :=
      (me_withGenerator _ _ _).trans (State.me_setMe s _ hp)
    rw [me_completeLocked (by rw [ha.active, ha.length]; exact hp), hdraw]
    exact .answers _ _ nofun Instr.isSyn_draw Instr.isEnc_draw rfl
  · exact synthesize_portStep (exec_syn f dth s ▸ h)
  · refine plainCommand_portStep (fun hs e => ?_) (exec_vc k s ▸ h)
    cases e
    exact volumeRun_portStep hs _
  · refine plainCommand_portStep (fun hs e => ?_) (exec_fmtq f s ▸ h)
    cases e
    exact answer_portStep (by cases f <;> nofun) (Instr.isSyn_fmtq f) (Instr.isEnc_fmtq f) hs
  · exact encodeSample_portStep (exec_enc f s ▸ h)

end

end Sys2Proof.Machine

namespace Sys2Proof.Machine

/-! ## What a command's step leaves of the block -/

@[simp] theorem raiseFatal_diagVol (c : FatalCode) (info : Word) (s : State) :
    (raiseFatal c info s).diagVol = s.diagVol := by
  rcases raiseFatal_cases c info s with ⟨-, e⟩ | ⟨-, e⟩ <;> rw [e]

@[simp] theorem acquire_diagVol (i : Instr) (load : Port → Port) (s : State) :
    (acquire i load s).diagVol = s.diagVol := by
  rcases acquire_cases i load s with ⟨-, e⟩ | ⟨-, -, -, e⟩ | ⟨-, -, e⟩ <;> rw [e] <;> simp

theorem memWrite_diagVol {addr : Word} {bytes : List Byte} {s t : State} (h : memWrite addr bytes s = .next t) :
    t.diagVol = s.diagVol := by
  rcases memWrite_cases addr bytes s with ⟨a, -, e⟩ | ⟨-, e⟩ <;> (rw [e] at h; cases h)
  simp

@[simp] theorem volumeRun_lock (k : Curve) (r : CurveResult) (s : State) : (volumeRun k r s).lock = s.lock := by
  rcases volumeRun_cases k r s with ⟨res, -, e⟩ | ⟨res, -, e⟩ | ⟨i, -, e⟩ <;> rw [e] <;> simp

/-- Only VC touches the diagnostic registers (R177). -/
theorem ExecStep.sameDiagnostics {i : Instr} {s t : State} (h : ExecStep s i t) (hi : ∀ k, i ≠ .vc k) :
    s.SameDiagnostics t := by
  unfold State.SameDiagnostics
  cases h with
  | seeds =>
    exact ⟨(completeLocked_diagCnt _).trans (seedGenerator_diagCnt s),
      (completeLocked_diagVol _).trans (seedGenerator_diagVol s),
      (completeLocked_diagSrc _).trans (seedGenerator_diagSrc s)⟩
  | draws =>
    exact ⟨(completeLocked_diagCnt _).trans (drawToRes_diagCnt s),
      (completeLocked_diagVol _).trans (drawToRes_diagVol s),
      (completeLocked_diagSrc _).trans (drawToRes_diagSrc s)⟩
  | scales k => exact absurd rfl (hi k)
  | synBegins f dth row u _ _ _ hu =>
    obtain ⟨-, -, -, hcnt, hsrc⟩ := memWrite_shared hu
    have hvol := memWrite_diagVol hu
    exact ⟨by simpa using hcnt, by simpa using hvol, by simpa using hsrc⟩
  | encBegins f row _ _ _ _ hu =>
    obtain ⟨-, -, -, hcnt, hsrc⟩ := memWrite_shared hu
    have hvol := memWrite_diagVol hu
    exact ⟨hcnt, hvol, hsrc⟩
  | _ => simp

/-- Only INIT writes `SEEDED` (R12, R96). -/
theorem ExecStep.same_seeded {i : Instr} {s t : State} (h : ExecStep s i t) (hi : i ≠ .init) : t.seeded = s.seeded := by
  cases h with
  | seeds => exact absurd rfl hi
  | draws => exact (completeLocked_seeded _).trans (drawToRes_seeded s)
  | synBegins f dth row u _ _ _ hu => simpa using (memWrite_shared hu).1
  | encBegins f row _ _ _ _ hu => exact (memWrite_shared hu).1
  | _ => simp

/-- Only SYN and ENC write memory (R65). -/
theorem ExecStep.same_mem {i : Instr} {s t : State} (h : ExecStep s i t) (hsyn : i.isSyn = false)
    (henc : i.isEnc = false) : t.mem = s.mem := by
  cases h with
  | seeds => exact (completeLocked_mem _).trans (seedGenerator_mem s)
  | draws => exact (completeLocked_mem _).trans (drawToRes_mem s)
  | synBegins => simp at hsyn
  | encBegins => simp at henc
  | synWrites => simp at hsyn
  | encWrites => simp at henc
  | _ => simp

theorem plainCommand_waiting {s : State} (hs : s.Waiting) (onAccept onRun : State → Outcome State) :
    plainCommand onAccept onRun s = .next s := byPhase_waitLock hs.1 hs.2 _ _ _

/-- No step of a command that takes no lock is enabled in `WAITLOCK` (R95). -/
theorem exec_waiting_of_unlocked {i : Instr} {s : State} (hi : i.takesLock = false) (hs : s.Waiting) :
    exec i s = .next s := by
  rcases i.family_cases with rfl | rfl | ⟨f, dth, rfl⟩ | ⟨k, rfl⟩ | ⟨f, rfl⟩ | ⟨f, rfl⟩
  · simp at hi
  · simp at hi
  · simp at hi
  · rw [exec_vc, volumeCommand, plainCommand_waiting hs]
  · rw [exec_fmtq, queryFormat, plainCommand_waiting hs]
  · rw [exec_enc, encodeSample]
    cases describe f with
    | none => exact byPhase_waitLock hs.1 hs.2 _ _ _
    | some row => exact plainCommand_waiting hs _ _

/-- Only INIT, DRAW and SYN touch the generator, `SEEDED` and the lock (R95). -/
theorem exec_sameGenerator {i : Instr} {s t : State} (h : exec i s = .next t) (hi : i.takesLock = false) :
    s.SameGenerator t := by
  by_cases hw : s.Waiting
  · rw [exec_waiting_of_unlocked hi hw] at h
    cases h
    exact ⟨rfl, rfl, rfl⟩
  have he := exec_step h
  refine ⟨?_, he.same_seeded (by rintro rfl; simp at hi), ?_⟩
  · rcases he.dither_cases with hd | ⟨-, ht⟩
    · exact hd
    · rw [hi] at ht; cases ht
  · cases he with
    | acquires _ _ hs => exact absurd hs hw
    | seeds => simp at hi
    | draws => simp at hi
    | scales k => exact volumeRun_lock k _ s
    | releases => simp at hi
    | synDone => simp at hi
    | synBegins => simp at hi
    | encBegins f row _ _ _ _ hu => exact (memWrite_shared hu).2.1
    | _ => simp

end Sys2Proof.Machine

namespace Sys2Proof.Machine

theorem lockedCommand_waiting {s : State} (hs : s.Waiting) (i : Instr) (effect : State → State) :
    lockedCommand i effect s = .next (acquire i id s) := byPhase_waitLock hs.1 hs.2 _ _ _

/-- In `WAITLOCK` only DRAW and SYN raise a fault: INIT needs no seed, and the others have no step there (R98). -/
theorem exec_waiting_fault {i : Instr} {s t : State} (hi : i = .init ∨ i.takesLock = false) (hs : s.Waiting)
    (h : exec i s = .next t) : t.fault = s.fault := by
  rcases hi with rfl | hi
  · have he : exec .init s = .next (acquire .init id s) := lockedCommand_waiting hs .init seedGenerator
    rw [he] at h
    cases h
    rcases acquire_cases .init id s with ⟨-, e⟩ | ⟨-, -, hne, -⟩ | ⟨-, -, e⟩
    · rw [e]
    · exact absurd rfl hne
    · rw [e]; rfl
  · rw [exec_waiting_of_unlocked hi hs] at h
    cases h
    rfl

/-- No step of INIT, nor of a command that takes no lock, raises a fault, but for the check for a sentinel format; the
guard of VC.SEG is dead (R149). -/
theorem exec_sameFault {i : Instr} {s t : State} (h : exec i s = .next t) (hrej : i.isRejected = false)
    (hi : i = .init ∨ i.takesLock = false) : t.fault = s.fault ∧ t.finfo = s.finfo := by
  cases hl : s.live with
  | false =>
    rw [exec_dead i hl] at h
    cases h
    exact ⟨rfl, rfl⟩
  | true =>
    have hfault : t.fault = s.fault := by
      rcases (exec_step h).fault_cases with hf | ⟨-, hr⟩ | ⟨hw, -⟩
      · exact hf
      · rw [hrej] at hr; cases hr
      · exact exec_waiting_fault hi ⟨hl, hw⟩ h
    rcases (exec_step h).raise_cases with hsame | ⟨-, -, c, hc⟩
    · exact hsame
    · have hnone : s.fault = 0 := by simpa [State.halted] using State.not_halted_of_live hl
      exact absurd (hc.symm.trans (hfault.trans hnone)) (faultWord_ne_zero c _)

/-! ## The byte a step of SYN or ENC writes -/

/-- A step writes no byte but the next of those its port has left, or, where none is left, the one at `addr`, and that
only where it begins a `MemWrite`. -/
structure State.WritesOnly (s t : State) (begins : Prop) (addr : Word) : Prop where
  left : ∀ a b rest, s.me.seq.out = (a, b) :: rest → ∀ x, x ≠ a.toNat → t.readByte x = s.readByte x
  first : s.me.seq.out = [] → ∀ x, x ≠ addr.toNat → t.readByte x = s.readByte x
  unbegun : s.me.seq.out = [] → ¬ begins → ∀ x, t.readByte x = s.readByte x

namespace State.WritesOnly

variable {s t : State} {begins : Prop} {addr : Word}

theorem of_same_mem (h : t.mem = s.mem) : s.WritesOnly t begins addr := by
  have hread (x : Nat) : t.readByte x = s.readByte x := by rw [State.readByte, h]; rfl
  exact ⟨fun _ _ _ _ x _ => hread x, fun _ x _ => hread x, fun _ _ x => hread x⟩

theorem of_left {w : Word × Byte} {rest : List (Word × Byte)} (hout : s.me.seq.out = w :: rest)
    (h : t.mem = Memory.writeByte s.mem w.1.toNat w.2) : s.WritesOnly t begins addr := by
  refine ⟨fun a b rest' hab x hx => ?_, fun hnil => ?_, fun hnil => ?_⟩
  · obtain ⟨rfl, -⟩ := List.cons.inj (hout.symm.trans hab)
    rw [State.readByte, h]
    exact Memory.readByte_writeByte_other s.mem a.toNat x b hx
  · rw [hout] at hnil; cases hnil
  · rw [hout] at hnil; cases hnil

theorem of_first {b : Byte} (hout : s.me.seq.out = []) (hbegins : begins)
    (h : t.mem = Memory.writeByte s.mem addr.toNat b) : s.WritesOnly t begins addr := by
  refine ⟨fun a b rest hab => ?_, fun _ x hx => ?_, fun _ hno => absurd hbegins hno⟩
  · rw [hout] at hab; cases hab
  · rw [State.readByte, h]
    exact Memory.readByte_writeByte_other s.mem addr.toNat x b hx

/-- A further byte of a `MemWrite`. -/
theorem of_writeNextByte (hp : s.active < s.ports.length) (hout : s.me.seq.out ≠ [])
    (h : t.mem = (writeNextByte s).mem) : s.WritesOnly t begins addr := by
  obtain ⟨w, rest, hw⟩ := List.exists_cons_of_ne_nil hout
  exact of_left hw (h.trans (writeNextByte_writes hp hw).mem)

/-- The first byte of a `MemWrite`: `u` differs from `s` neither in memory nor in its number of ports. -/
theorem of_memWrite {u : State} {bytes : List Byte} (hp : s.active < s.ports.length) (hout : s.me.seq.out = [])
    (hbegins : begins) (ha : s.SameAround u) (hmem : u.mem = s.mem) {v : State}
    (hv : memWrite addr bytes u = .next v) (h : t.mem = v.mem) : s.WritesOnly t begins addr := by
  rcases memWrite_writes (by rw [ha.active, ha.length]; exact hp) hv with e | ⟨w, rest, hb, hw⟩
  · exact of_same_mem (h.trans (e.trans hmem))
  · cases bytes with
    | nil => cases hb
    | cons b bytes =>
      cases hb
      exact of_first hout hbegins (h.trans (hw.mem.trans (by rw [hmem])))

end State.WritesOnly

/-- A SYN in `RUN` begins a sample, at the cursor, only where one is left to make and none waits for its release (R106,
R137). -/
theorem synRun_writesOnly {row : Row} {dth : Bool} {s t : State} (hs : s.Running) (h : synRun row dth s = .next t) :
    s.WritesOnly t (s.me.seq.sent = false ∧ s.me.seq.sidx.toNat < s.me.samples) s.me.seq.cur := by
  have hp := State.active_lt_of_live hs.1
  rcases synRun_cases row dth s with ⟨hout, e⟩ | ⟨-, -, e⟩ | ⟨hout, hsent, hmore, e⟩ | ⟨-, -, -, e⟩ |
    ⟨-, -, -, e⟩ <;> rw [e] at h
  · cases h; exact .of_writeNextByte hp hout (endSample_mem row _)
  · cases h; exact .of_same_mem rfl
  · obtain ⟨u, hu, rfl⟩ := thenNext_eq_next.mp h
    exact .of_memWrite hp hout ⟨hsent, hmore⟩ (.beginSample s) rfl hu (endSample_mem row u)
  · cases h; exact .of_same_mem rfl
  · cases h; exact .of_same_mem rfl

/-- An ENC in `RUN` begins its `MemWrite`, at `BUF`, only where it has not begun it (R134). -/
theorem encRun_writesOnly {row : Row} {s t : State} (hs : s.Running) (h : encRun row s = .next t) :
    s.WritesOnly t (s.me.seq.sent = false) s.me.buf := by
  have hp := State.active_lt_of_live hs.1
  rcases encRun_cases row s with ⟨hout, e⟩ | ⟨-, -, e⟩ | ⟨hout, hsent, e⟩ <;> rw [e] at h
  · cases h; exact .of_writeNextByte hp hout rfl
  · cases h; exact .of_same_mem rfl
  · exact .of_memWrite hp hout hsent (.setMe s _ s.lock s.mem) rfl h rfl

/-- Outside `RUN` no step of a command writes memory (R105, R134). -/
theorem ExecStep.same_mem_of_not_run {i : Instr} {s t : State} (h : ExecStep s i t) (hs : ¬ s.Running) :
    t.mem = s.mem := by
  rcases h.mem_cases with hm | ⟨hrun, -⟩
  · exact hm
  · exact absurd hrun hs

/-- The byte a step of SYN writes, in every phase. -/
theorem exec_syn_writesOnly {f : Format} {dth : Bool} {row : Row} {s t : State} (hrow : describe f = some row)
    (h : exec (.syn f dth) s = .next t) :
    s.WritesOnly t (s.me.seq.sent = false ∧ s.me.seq.sidx.toNat < s.me.samples) s.me.seq.cur := by
  by_cases hs : s.Running
  · rw [exec_syn_running dth hrow hs] at h
    exact synRun_writesOnly hs h
  · exact .of_same_mem ((exec_step h).same_mem_of_not_run hs)

/-- The byte a step of ENC writes, in every phase. -/
theorem exec_enc_writesOnly {f : Format} {row : Row} {s t : State} (hrow : describe f = some row)
    (h : exec (.enc f) s = .next t) : s.WritesOnly t (s.me.seq.sent = false) s.me.buf := by
  by_cases hs : s.Running
  · rw [exec_enc_running hrow hs] at h
    exact encRun_writesOnly hs h
  · exact .of_same_mem ((exec_step h).same_mem_of_not_run hs)

/-- A step in another phase than `RUN` changes no byte. -/
theorem ExecStep.same_readByte {i : Instr} {s t : State} (h : ExecStep s i t) (hs : s.me.seq.phase ≠ .run) (x : Nat) :
    t.readByte x = s.readByte x := by
  rw [State.readByte, h.same_mem_of_not_run fun hrun => hs hrun.2]
  rfl

/-! ## The frames -/

/-- Settles O24: what the step leaves of the block, of its port and of memory. -/
theorem synFrame : Obligations.SynFrame := by
  intro f dth row s t hrow _ h
  have hstep := exec_step h
  have hport := exec_portStep h
  have hsyn := Instr.isSyn_syn f dth
  obtain ⟨hleft, hfirst, hunbegun⟩ := exec_syn_writesOnly hrow h
  obtain ⟨hsurroundings, hothers⟩ := hstep.sameAround
  refine ⟨hothers, hport.operands, hport.res (.inr (.inl hsyn)), hstep.same_seeded (by rintro e; simp [e] at hsyn),
    hstep.sameDiagnostics (fun k e => by simp [e] at hsyn), hsurroundings, hport.cmd, hport.tok_of_ne,
    hstep.same_readByte, hleft, hfirst, fun hout hdone => hunbegun hout ?_⟩
  rintro ⟨hsent, hmore⟩
  rcases hdone with hd | hd
  · rw [hsent] at hd; cases hd
  · exact absurd hmore (Nat.not_lt.mpr hd)

/-- Settles O29: what the step leaves of the block, of its port and of memory; a concrete format is never rejected. -/
theorem encFrame : Obligations.EncFrame := by
  intro f row s t hrow _ h
  have hstep := exec_step h
  have hport := exec_portStep h
  have henc := Instr.isEnc_enc f
  have hlock := Instr.takesLock_enc f
  have hrej : (Instr.enc f).isRejected = false := by rw [← Bool.not_eq_true, Instr.isRejected_enc, hrow]; simp
  obtain ⟨hleft, hfirst, hunbegun⟩ := exec_enc_writesOnly hrow h
  obtain ⟨hsurroundings, hothers⟩ := hstep.sameAround
  obtain ⟨hfault, hfinfo⟩ := exec_sameFault h hrej (.inr hlock)
  exact ⟨hothers, hport.operands, hport.tok (Instr.isSyn_enc f), hport.res (.inr (.inr henc)),
    exec_sameGenerator h hlock, hfault, hfinfo, hstep.sameDiagnostics (fun k e => by simp [e] at henc), hsurroundings,
    hport.cmd, hstep.same_readByte, hleft, hfirst, fun hout hsent => hunbegun hout (by simp [hsent])⟩

/-- INIT, DRAW, VC and FMTQ write no memory, and are never rejected. -/
theorem registerCommand_facts {i : Instr} (hi : i = .init ∨ i = .draw ∨ (∃ k, i = .vc k) ∨ ∃ f, i = .fmtq f) :
    i.isSyn = false ∧ i.isEnc = false ∧ i.isRejected = false ∧ (i = .init ∨ i = .draw ∨ i.takesLock = false) := by
  rcases hi with rfl | rfl | ⟨k, rfl⟩ | ⟨f, rfl⟩
  · exact ⟨rfl, rfl, rfl, .inl rfl⟩
  · exact ⟨rfl, rfl, rfl, .inr (.inl rfl)⟩
  · exact ⟨Instr.isSyn_vc k, Instr.isEnc_vc k, isRejected_vc k, .inr (.inr (Instr.takesLock_vc k))⟩
  · exact ⟨Instr.isSyn_fmtq f, Instr.isEnc_fmtq f, isRejected_fmtq f, .inr (.inr (Instr.takesLock_fmtq f))⟩

/-- Settles O49: what the step leaves of the block and of its port; the four differ in what they take and answer. -/
theorem registerCommandsFrame : Obligations.RegisterCommandsFrame := by
  intro i s t hi _ h
  obtain ⟨hsyn, henc, hrej, hlock⟩ := registerCommand_facts hi
  have hstep := exec_step h
  have hport := exec_portStep h
  obtain ⟨hsurroundings, hothers⟩ := hstep.sameAround
  refine ⟨hothers, hport.operands, hport.tok hsyn, hsurroundings, fun a => ?_, fun hinit => hport.res (.inl hinit),
    hstep.same_seeded, fun hinit hdraw => exec_sameGenerator h ((hlock.resolve_left hinit).resolve_left hdraw),
    hstep.sameDiagnostics, fun hdraw => ?_, hport.cmd, hport.out hsyn henc⟩
  · rw [State.readByte, hstep.same_mem hsyn henc]
    rfl
  · exact exec_sameFault h hrej (hlock.imp_right fun hl => hl.resolve_left hdraw)

end Sys2Proof.Machine

namespace Sys2Proof.Machine

/-! ## The accepting step -/

theorem lockedCommand_idle {s : State} (hs : s.Idle) (i : Instr) (effect : State → State) :
    lockedCommand i effect s = .next (accept i s) := byPhase_idle hs.1 hs.2 _ _ _

theorem plainCommand_idle {s : State} (hs : s.Idle) (onAccept onRun : State → Outcome State) :
    plainCommand onAccept onRun s = onAccept s := byPhase_idle hs.1 hs.2 _ _ _

theorem exec_vc_idle {s : State} (k : Curve) (hs : s.Idle) : exec (.vc k) s = .next (accept (.vc k) s) := by
  rw [exec_vc, volumeCommand, plainCommand_idle hs]

theorem exec_fmtq_idle {s : State} (f : Format) (hs : s.Idle) :
    exec (.fmtq f) s = .next (accept (.fmtq f) s) := by
  rw [exec_fmtq, queryFormat, plainCommand_idle hs]

theorem exec_enc_idle {s : State} {f : Format} {row : Row} (hrow : describe f = some row) (hs : s.Idle) :
    exec (.enc f) s = .next (accept (.enc f) s) := by
  rw [exec_enc, encodeSample, hrow]
  exact plainCommand_idle hs _ _

/-- A SYN whose range fits is accepted as it stands where the lock is held for the whole command (R50, R105). -/
theorem synAccept_call {i : Instr} {row : Row} {s : State} (hfits : s.me.rangeFits row.byteWidth = true)
    (hgrain : s.cfg.lockGrain = .call) : synAccept i row s = .next (accept i s) := by
  rcases synAccept_cases i row s with ⟨hno, -⟩ | ⟨-, -, e⟩ | ⟨-, hsample, -⟩
  · rw [hfits] at hno; cases hno
  · exact e
  · rw [hgrain] at hsample; cases hsample

/-- The state a command that takes the lock leaves when it is accepted (R95, R96). -/
theorem accept_of_takesLock {i : Instr} (h : i.takesLock = true) (s : State) :
    accept i s = { s with ports := s.ports.set s.active { s.me with
      cmd := commandValue i
      seq := { s.me.seq with phase := .waitLock, op := some i } } } := by
  rw [accept, h]; rfl

/-- The state a command that takes no lock leaves when it is accepted (R83, R134, R140). -/
theorem accept_of_not_takesLock {i : Instr} (h : i.takesLock = false) (s : State) :
    accept i s = { s with ports := s.ports.set s.active { s.me with
      cmd := commandValue i
      seq := { s.me.seq with phase := .run, op := some i } } } := by
  rw [accept, h]; rfl

/-- Settles O5: each command's step in `IDLE` is `accept`, and the phase it ends in is what `takesLock` says. -/
theorem acceptIssuesTheCommand : Obligations.AcceptIssuesTheCommand := by
  intro s hs
  constructor
  · rintro i (rfl | rfl | ⟨f, dth, row, rfl, hrow, hgrain, hfits⟩)
    · rw [← accept_of_takesLock Instr.takesLock_init]
      exact lockedCommand_idle hs _ seedGenerator
    · rw [← accept_of_takesLock Instr.takesLock_draw]
      exact lockedCommand_idle hs _ drawToRes
    · rw [← accept_of_takesLock (Instr.takesLock_syn f dth), exec_syn_idle dth hrow hs, synAccept_call hfits hgrain]
  · rintro i (⟨k, rfl⟩ | ⟨f, rfl⟩ | ⟨f, rfl, hvalid⟩)
    · rw [← accept_of_not_takesLock (Instr.takesLock_vc k), exec_vc_idle k hs]
    · rw [← accept_of_not_takesLock (Instr.takesLock_fmtq f), exec_fmtq_idle f hs]
    · obtain ⟨row, hrow⟩ := Option.isSome_iff_exists.mp hvalid
      rw [← accept_of_not_takesLock (Instr.takesLock_enc f), exec_enc_idle hrow hs]

end Sys2Proof.Machine

namespace Sys2Proof.Machine

/-! ## The word FMTQ answers -/

/-- Concatenated words as a number: the low part does not carry into the high one. -/
theorem toNat_append_eq_add {m n : Nat} (x : BitVec m) (y : BitVec n) :
    (x ++ y).toNat = x.toNat * 2 ^ n + y.toNat := by
  rw [BitVec.toNat_append, ← Nat.shiftLeft_add_eq_or_of_lt y.isLt, Nat.shiftLeft_eq]

/-- Every field of a row has room in the eight bits R83 gives it (R81). -/
theorem row_fields_lt {f : Format} {row : Row} (hrow : describe f = some row) :
    row.shift < 2 ^ 8 ∧ row.byteWidth < 2 ^ 8 ∧ row.bitDepth < 2 ^ 8 := by
  cases f <;> cases hrow <;> decide

theorem describeWord_sentinel (native : Config.NativeOrder) {f : Format} (hrow : describe f = none) :
    describeWord native f = 0 := by
  rw [describeWord, hrow]

/-- The packed row as the sum of its fields, each at its place (R83). -/
theorem describeWord_row (native : Config.NativeOrder) {f : Format} {row : Row} (hrow : describe f = some row) :
    describeWord native f = BitVec.ofNat 64
      (2 ^ 31 + (if row.bigEndian native then 2 ^ 27 else 0) + (if row.signed then 2 ^ 26 else 0) +
        row.order.code.toNat * 2 ^ 24 + row.shift * 2 ^ 16 + row.byteWidth * 2 ^ 8 + row.bitDepth) := by
  obtain ⟨hshift, hwidth, hdepth⟩ := row_fields_lt hrow
  have horder := row.order.code.isLt
  rw [describeWord, hrow]
  apply BitVec.eq_of_toNat_eq
  simp only [BitVec.truncate_eq_setWidth, BitVec.toNat_setWidth, toNat_append_eq_add, BitVec.toNat_ofNat,
    BitVec.toNat_ofBool, Nat.mod_eq_of_lt hshift, Nat.mod_eq_of_lt hwidth, Nat.mod_eq_of_lt hdepth]
  cases row.bigEndian native <;> cases row.signed <;> simp <;> omega

/-- The run step of FMTQ (R83). -/
theorem exec_fmtq_running {s : State} (f : Format) (hs : s.Running) :
    exec (.fmtq f) s = .next (complete (writeRes (describeWord s.cfg.nativeOrder f) s)) := by
  rw [exec_fmtq, queryFormat, plainCommand]
  exact byPhase_run hs.1 hs.2 _ _ _

/-- The state a command leaves that writes `RES` and completes (R83, R140). -/
theorem complete_writeRes {s : State} (hp : s.active < s.ports.length) (v : Word) :
    complete (writeRes v s) = { s with ports := s.ports.set s.active { s.me with
      res := v
      seq := { s.me.seq with phase := .idle, op := none } } } := by
  rw [complete, writeRes, State.me_setMe s _ hp, State.setMe_setMe]
  rfl

/-- Settles O34: the step answers `describeWord`, which is the sum of the row's fields, and the listed values row by
row. -/
theorem fmtqRunStepAnswersTheRow : Obligations.FmtqRunStepAnswersTheRow := by
  intro f s hs answer
  have hexec : exec (.fmtq f) s = .next (answer (describeWord s.cfg.nativeOrder f)) := by
    rw [exec_fmtq_running f hs, complete_writeRes (State.active_lt_of_live hs.1)]
  rw [hexec]
  constructor
  · cases hrow : describe f with
    | none => rw [describeWord_sentinel _ hrow]
    | some row => rw [describeWord_row _ hrow]
  · congr 2
    generalize s.cfg.nativeOrder = native
    cases f <;> cases native <;> rfl

end Sys2Proof.Machine

namespace Sys2Proof.Machine

/-! ## The functions of the dither source -/

/-- Below the place where the word wraps, a bit of `rotate` comes from the left shift; above it, from the right shift. -/
theorem getLsbD_rotate (x : Word) {k i : Nat} (hk : k ≤ 64) (hi : i < 64) :
    (rotate x k).getLsbD ((i + k) % 64) = x.getLsbD i := by
  rw [rotate, BitVec.getLsbD_or, BitVec.getLsbD_shiftLeft, BitVec.getLsbD_ushiftRight]
  by_cases hwrap : i + k < 64
  · have hbeyond : x.getLsbD (64 - k + (i + k)) = false := BitVec.getLsbD_of_ge x _ (by omega)
    rw [Nat.mod_eq_of_lt hwrap, hbeyond]
    simp [hwrap]
  · have hmod : (i + k) % 64 = i + k - 64 := by omega
    have hplace : 64 - k + (i + k - 64) = i := by omega
    have hlow : i + k - 64 < k := by omega
    rw [hmod, hplace]
    simp [hlow]

/-- Settles O9: the three amounts are at most 64. -/
theorem rotateMovesEveryBit : Obligations.RotateMovesEveryBit := by
  intro x k hk
  exact ⟨rfl, fun i hi => getLsbD_rotate x (by omega) hi⟩

/-- Settles O10: the listing of R91 assigns `a`, `b` and `c` before it reads them again, so its `d` is over the new `a`. -/
theorem drawIsTheParallelAssignment : Obligations.DrawIsTheParallelAssignment := by
  intro a b c d
  exact ⟨rfl, rfl⟩

/-- The DitherState before a draw: `e` is the new `d` less the new `a`, and then each old word follows from the next
(R91). -/
def Dither.undo (s : Dither) : Dither :=
  let e := s.d - s.a
  let d := s.c - e
  let c := s.b - rotate d 37
  let b := s.a ^^^ rotate c 13
  { a := e + rotate b 7, b := b, c := c, d := d }

theorem Dither.undo_next (s : Dither) : s.next.undo = s := by
  simp only [Dither.undo, Dither.next, BitVec.add_sub_cancel, BitVec.xor_assoc, BitVec.xor_self, BitVec.xor_zero,
    BitVec.sub_add_cancel]

/-- Settles O11: a draw can be undone. -/
theorem drawIsInjective : Obligations.DrawIsInjective := by
  intro s t h
  exact Function.LeftInverse.injective Dither.undo_next h

end Sys2Proof.Machine

namespace Sys2Proof.Machine

/-! ## The acquire step -/

/-- A port that acquires while the lock is held is held (R95, R186). -/
theorem acquire_of_held {s : State} {p : Nat} (h : s.lock = .held p) (i : Instr) (load : Port → Port) :
    acquire i load s = s := by
  rw [acquire, h]

/-- The acquire step that takes the free lock (R95). -/
theorem acquire_of_free {i : Instr} {s : State} (hfree : s.lock = .free) (hseed : s.seeded = true ∨ i = .init)
    (load : Port → Port) :
    acquire i load s = { s.setMe ((load s.me).withPhase .run) with lock := .held s.active } := by
  rcases acquire_cases i load s with ⟨⟨p, hheld⟩, -⟩ | ⟨-, hunseeded, hne, -⟩ | ⟨-, -, e⟩
  · rw [hfree] at hheld; cases hheld
  · simp [hunseeded, hne] at hseed
  · exact e

/-- The acquire step that faults `NOT_SEEDED`: `FAULT`, `FINFO` and the lock (R98, R172). -/
theorem acquire_of_unseeded {i : Instr} {s : State} (hl : s.live = true) (hfree : s.lock = .free)
    (hseed : s.seeded = false) (hi : i ≠ .init) (load : Port → Port) :
    acquire i load s = { s with
      lock := .held s.active
      fault := faultWord .notSeeded s.active
      finfo := commandValue i } := by
  rcases acquire_cases i load s with ⟨⟨p, hheld⟩, -⟩ | ⟨-, -, -, e⟩ | ⟨-, hseeded, -⟩
  · rw [hfree] at hheld; cases hheld
  · rw [e, raiseFatal]
    exact if_neg (by simpa [State.halted] using State.not_halted_of_live hl)
  · simp [hseed, hi] at hseeded

/-! ### Which step of a command in `WAITLOCK` is the acquire step -/

theorem exec_init_waiting {s : State} (hs : s.Waiting) : exec .init s = .next (acquire .init id s) :=
  lockedCommand_waiting hs .init seedGenerator

theorem exec_draw_waiting {s : State} (hs : s.Waiting) : exec .draw s = .next (acquire .draw id s) :=
  lockedCommand_waiting hs .draw drawToRes

theorem exec_syn_waiting {s : State} {f : Format} {row : Row} (dth : Bool) (hrow : describe f = some row)
    (hs : s.Waiting) : exec (.syn f dth) s = synWait (.syn f dth) s := by
  rw [exec_syn, synthesize, hrow]
  exact byPhase_waitLock hs.1 hs.2 _ _ _

/-- A SYN with a sentinel format has no step in `WAITLOCK`, since none is ever accepted (R122). -/
theorem exec_syn_sentinel_waiting {s : State} {f : Format} (dth : Bool) (hrow : describe f = none) (hs : s.Waiting) :
    exec (.syn f dth) s = .next s := by
  rw [exec_syn, synthesize, hrow]
  exact byPhase_waitLock hs.1 hs.2 _ _ _

/-- The acquire step of a SYN that holds the lock for the whole command loads the stream (R105). -/
theorem synWait_call {s : State} (h : s.cfg.lockGrain = .call) (i : Instr) :
    synWait i s = .next (acquire i Port.loadStream s) := by
  rw [synWait, h]

/-- A SYN under `LOCK_GRAIN = SAMPLE` has samples left where it has made none, or not all (R137). -/
theorem samplesDone_eq_false {q : Port} (h : q.seq.sidx = 0 ∨ q.seq.sidx.toNat ≠ 2 * q.nfr.toNat) :
    q.samplesDone = false := by
  rcases h with h | h
  · simp [Port.samplesDone, h]
  · simp [Port.samplesDone, Port.samples, h]

/-- The step of a waiting SYN is an acquire step, unless its last sample is made and only `done` is left (R105, R137). -/
theorem synWait_eq_acquire {s : State} (i : Instr) (h : s.cfg.lockGrain = .call ∨ s.me.samplesDone = false) :
    ∃ load, synWait i s = .next (acquire i load s) := by
  rcases synWait_cases i s with ⟨-, e⟩ | ⟨hsample, hdone, -⟩ | ⟨-, -, e⟩
  · exact ⟨_, e⟩
  · simp [hsample, hdone] at h
  · exact ⟨_, e⟩

/-- Settles O6: in each of the three commands the step is `acquire`, and the lock is free to take. -/
theorem acquireTakesTheFreeLock : Obligations.AcquireTakesTheFreeLock := by
  intro s hs hfree
  refine ⟨?_, fun hseed => ?_, fun f dth hseed hvalid hgrain => ?_⟩
  · rw [exec_init_waiting hs, acquire_of_free hfree (.inr rfl)]
    rfl
  · rw [exec_draw_waiting hs, acquire_of_free hfree (.inl hseed)]
    rfl
  · obtain ⟨row, hrow⟩ := Option.isSome_iff_exists.mp hvalid
    rw [exec_syn_waiting dth hrow hs, synWait_call hgrain, acquire_of_free hfree (.inl hseed)]
    rfl

/-- Settles O7: what the command's step is in `WAITLOCK` is an acquire step, which is held, or no step at all. -/
theorem heldPortWaits : Obligations.HeldPortWaits := by
  intro i s p hs hheld hleft
  rcases i.family_cases with rfl | rfl | ⟨f, dth, rfl⟩ | ⟨k, rfl⟩ | ⟨f, rfl⟩ | ⟨f, rfl⟩
  · rw [exec_init_waiting hs, acquire_of_held hheld]
  · rw [exec_draw_waiting hs, acquire_of_held hheld]
  · cases hrow : describe f with
    | none => exact exec_syn_sentinel_waiting dth hrow hs
    | some row =>
      obtain ⟨load, e⟩ :=
        synWait_eq_acquire (.syn f dth) ((hleft (Instr.isSyn_syn f dth)).imp_right samplesDone_eq_false)
      rw [exec_syn_waiting dth hrow hs, e, acquire_of_held hheld]
  · exact exec_waiting_of_unlocked (Instr.takesLock_vc k) hs
  · exact exec_waiting_of_unlocked (Instr.takesLock_fmtq f) hs
  · exact exec_waiting_of_unlocked (Instr.takesLock_enc f) hs

/-- The commands with the opcode of SYN are the SYN of each format (R61). -/
theorem exists_syn_of_isSyn {i : Instr} (h : i.isSyn = true) : ∃ f dth, i = .syn f dth := by
  rcases i.family_cases with rfl | rfl | hsyn | ⟨k, rfl⟩ | ⟨f, rfl⟩ | ⟨f, rfl⟩
  case inr.inr.inl => exact hsyn
  all_goals simp at h

/-- DRAW and a SYN with a concrete format and samples left acquire in `WAITLOCK` (R95). -/
theorem exec_waiting_eq_acquire {i : Instr} {s : State} (hs : s.Waiting)
    (hi : i = .draw ∨ (i.isSyn = true ∧ i.isRejected = false ∧
      (s.cfg.lockGrain = .call ∨ s.me.samplesDone = false))) :
    ∃ load, exec i s = .next (acquire i load s) := by
  rcases hi with rfl | ⟨hsyn, hrej, hleft⟩
  · exact ⟨id, exec_draw_waiting hs⟩
  · obtain ⟨f, dth, rfl⟩ := exists_syn_of_isSyn hsyn
    cases hrow : describe f with
    | none => rw [(Instr.isRejected_syn f dth).mpr hrow] at hrej; cases hrej
    | some row =>
      rw [exec_syn_waiting dth hrow hs]
      exact synWait_eq_acquire _ hleft

/-- Settles O8: the step is `acquire`, and the generator is not seeded. -/
theorem unseededAcquireFaults : Obligations.UnseededAcquireFaults := by
  intro i s hs hfree hseed hi
  have hne : i ≠ .init := by rintro rfl; simp at hi
  obtain ⟨load, e⟩ := exec_waiting_eq_acquire hs
    (hi.imp_right fun ⟨hsyn, hrej, hleft⟩ => ⟨hsyn, hrej, hleft.imp_right fun h => samplesDone_eq_false (.inl h)⟩)
  rw [e, acquire_of_unseeded hs.1 hfree hseed hne]
  rfl

end Sys2Proof.Machine

namespace Sys2Proof.Machine

/-! ## The run steps of INIT and DRAW, and INIT as a whole -/

theorem lockedCommand_running {s : State} (hs : s.Running) (i : Instr) (effect : State → State) :
    lockedCommand i effect s = .next (completeLocked (effect s)) := byPhase_run hs.1 hs.2 _ _ _

/-- The state a command leaves that writes its port and the generator and completes. DitherState is any here, so that no
proof has to evaluate draws. -/
theorem completeLocked_withGenerator {s : State} (hp : s.active < s.ports.length) (q : Port) (d : Dither)
    (seeded : Bool) :
    completeLocked ((s.setMe q).withGenerator d seeded) = { s with
      dither := d
      seeded := seeded
      lock := .free
      ports := s.ports.set s.active { q with seq := { q.seq with phase := .idle, op := none } } } := by
  have hme : ((s.setMe q).withGenerator d seeded).me = q := State.me_setMe s q hp
  rw [completeLocked, hme]
  simp only [State.setMe, State.setPort, State.withGenerator, Port.completed, List.set_set]

/-- A port written with what it holds is as it was. -/
theorem State.setMe_me (s : State) : s.setMe s.me = s := by
  rw [State.setMe, State.setPort, State.me, set_port_self]

/-- `init(seed)` with the constant and the number of draws of R92. -/
theorem Dither.init_eq (seed : Word) : Dither.init seed =
    Dither.advance 20 { a := 0x00000000F1EA5EED, b := seed, c := seed, d := seed } := by
  rw [Dither.init, discardedDraws, initConstant]
  rfl

theorem exec_init_running {s : State} (hs : s.Running) : exec .init s = .next { s with
    dither := Dither.init s.me.seed
    seeded := true
    lock := .free
    ports := s.ports.set s.active { s.me with seq := { s.me.seq with phase := .idle, op := none } } } := by
  have hp := State.active_lt_of_live hs.1
  have hexec : exec .init s = .next (completeLocked (seedGenerator s)) := lockedCommand_running hs .init seedGenerator
  rw [hexec, seedGenerator, ← completeLocked_withGenerator hp, State.setMe_me]

/-- Settles O12: the run step, with `init(SEED)` written out. -/
theorem initRunStepSeeds : Obligations.InitRunStepSeeds := by
  intro s hs
  rw [exec_init_running hs, Dither.init_eq]

/-- Settles O14: the run step writes `RES` and the generator, and completes. -/
theorem drawRunStepWritesRes : Obligations.DrawRunStepWritesRes := by
  intro s hs
  have hexec : exec .draw s = .next (completeLocked (drawToRes s)) := lockedCommand_running hs .draw drawToRes
  rw [hexec, drawToRes, writeRes, completeLocked_withGenerator (State.active_lt_of_live hs.1)]
  rfl

/-- A command that steps to `t` goes on from `t`. -/
theorem execTimes_of_next {i : Instr} {s t : State} (h : exec i s = .next t) (n : Nat) :
    execTimes i (n + 1) s = execTimes i n t := by
  rw [execTimes, h]

/-- A block stays live when the acting port is written (R173). -/
@[simp] theorem State.setMe_live (s : State) (q : Port) : (s.setMe q).live = s.live := by
  simp [State.live, State.setMe, State.setPort, State.halted]

/-- The accepting step of INIT leaves its port waiting for the lock (R96). -/
theorem exec_init_idle {s : State} (hs : s.Idle) :
    exec .init s = .next (s.setMe (s.me.accepting .init .waitLock)) := lockedCommand_idle hs .init seedGenerator

/-- The acquire step of a port that has just been written, with nothing to load. -/
theorem acquire_setMe {s : State} (hp : s.active < s.ports.length) (hfree : s.lock = .free) {i : Instr}
    (hseed : s.seeded = true ∨ i = .init) (q : Port) :
    acquire i id (s.setMe q) = { s.setMe (q.withPhase .run) with lock := .held s.active } := by
  rw [acquire_of_free (s := s.setMe q) hfree hseed, State.me_setMe s q hp, State.setMe_setMe]
  rfl

/-- The three steps of INIT while the lock is free: accepted, acquired, run (R96). -/
theorem execTimes_init {s : State} (hs : s.Idle) (hfree : s.lock = .free) : execTimes .init 3 s = .next { s with
    dither := Dither.init s.me.seed
    seeded := true
    ports := s.ports.set s.active { s.me with
      cmd := commandValue .init
      seq := { s.me.seq with phase := .idle, op := none } } } := by
  have hp := State.active_lt_of_live hs.1
  have hwaiting : (s.setMe (s.me.accepting .init .waitLock)).Waiting :=
    ⟨by simpa using hs.1, by rw [State.me_setMe s _ hp]; rfl⟩
  have hme : ({ s.setMe (s.me.accepting .init .run) with lock := .held s.active } : State).me =
      s.me.accepting .init .run := State.me_setMe s _ hp
  have hrunning : ({ s.setMe (s.me.accepting .init .run) with lock := .held s.active } : State).Running :=
    ⟨(State.setMe_live s _).trans hs.1, by rw [hme]; rfl⟩
  have hacquire : exec .init (s.setMe (s.me.accepting .init .waitLock)) =
      .next { s.setMe (s.me.accepting .init .run) with lock := .held s.active } := by
    rw [exec_init_waiting hwaiting, acquire_setMe hp hfree (.inr rfl)]
    rfl
  rw [execTimes_of_next (exec_init_idle hs), execTimes_of_next hacquire, execTimes_of_next (exec_init_running hrunning),
    hme, execTimes]
  simp only [State.setMe, State.setPort, List.set_set, Port.accepting, ← hfree]

/-- Settles O13: what the three steps leave does not depend on the old DitherState, and `SEEDED` is set already. -/
theorem reseedReplacesTheGenerator : Obligations.ReseedReplacesTheGenerator := by
  intro s hs hfree hseeded
  have hcmd : commandValue .init = 0x10000000 := by decide
  rw [execTimes_init hs hfree, hcmd, ← hseeded]

end Sys2Proof.Machine

namespace Sys2Proof.Machine

/-! ## The bytes of a sample -/

/-- What `pack` reads of a hyper-sample is the sample's own bits (R108). -/
theorem pack_congr (cfg : Config.Params) {row : Row} {h h' : Word} (hbits : sampleBits row h = sampleBits row h') :
    pack cfg row h = pack cfg row h' := by
  rw [pack, pack, hbits]

/-- A hyper-sample's bits are those above the row's shift (R108). -/
theorem sampleBits_congr {row : Row} {h h' : Word} (htop : h.toNat / 2 ^ row.shift = h'.toNat / 2 ^ row.shift) :
    sampleBits row h = sampleBits row h' := by
  rw [sampleBits, sampleBits, htop]

theorem shift_lt {f : Format} {row : Row} (hrow : describe f = some row) : row.shift < 64 := by
  cases f <;> cases hrow <;> decide

/-- A masked word lies below the least bit of the sample (R81). -/
theorem toNat_and_mask_lt {row : Row} (hshift : row.shift < 64) (w : Word) :
    (w &&& row.mask).toNat < 2 ^ row.shift := by
  have hpow : 2 ^ row.shift < 2 ^ 64 := Nat.pow_lt_pow_right (by decide) hshift
  have hpos : 0 < 2 ^ row.shift := Nat.two_pow_pos _
  have hmask : row.mask.toNat = 2 ^ row.shift - 1 := by
    have hone : (1#64 <<< row.shift).toNat = 2 ^ row.shift := by
      rw [BitVec.toNat_shiftLeft, Nat.shiftLeft_eq]
      simpa using Nat.mod_eq_of_lt hpow
    rw [Row.mask, BitVec.toNat_sub_of_le (by rw [BitVec.le_def, hone]; exact hpos), hone]
    rfl
  have hle : (w &&& row.mask).toNat ≤ row.mask.toNat := by
    rw [BitVec.toNat_and]
    exact Nat.and_le_right
  omega

/-- Below zero by no more than the shift's range, a number has the top bits of -1. -/
theorem sub_div_two_pow {n k x : Nat} (hk : k ≤ n) (hpos : 0 < x) (hx : x ≤ 2 ^ k) :
    (2 ^ n - x) / 2 ^ k = (2 ^ n - 1) / 2 ^ k := by
  obtain ⟨m, rfl⟩ := Nat.exists_eq_add_of_le hk
  have hm := Nat.two_pow_pos m
  have hsplit : ∀ y, 0 < y → y ≤ 2 ^ k → (2 ^ (k + m) - y) / 2 ^ k = 2 ^ m - 1 := fun y hy hyk => by
    have heq : 2 ^ (k + m) - y = 2 ^ k * (2 ^ m - 1) + (2 ^ k - y) := by
      have hle : 2 ^ k ≤ 2 ^ k * 2 ^ m := Nat.le_mul_of_pos_right _ hm
      rw [Nat.pow_add, Nat.mul_sub, Nat.mul_one]
      omega
    rw [heq, Nat.mul_add_div (Nat.two_pow_pos k), Nat.div_eq_of_lt (by omega), Nat.add_zero]
  rw [hsplit x hpos hx, hsplit 1 (by decide) (Nat.two_pow_pos k)]

/-- Settles O22: the dither is less than one step of the sample in size, so only its sign is left above the shift. -/
theorem ditheredSamplesAreZeroOrMinusOne : Obligations.DitheredSamplesAreZeroOrMinusOne := by
  intro cfg f row r prev hrow
  have hshift := shift_lt hrow
  have hr := toNat_and_mask_lt hshift r
  have hprev := toNat_and_mask_lt hshift prev
  have hpow : 2 ^ row.shift < 2 ^ 64 := Nat.pow_lt_pow_right (by decide) hshift
  have hdither : hyperSample row true r prev = BitVec.ofInt 64 (tpdf row r prev) := rfl
  rw [hdither, tpdf]
  generalize (r &&& row.mask).toNat = x at hr ⊢
  generalize (prev &&& row.mask).toNat = y at hprev ⊢
  split
  case isTrue hneg =>
    have hnat : (BitVec.ofInt 64 ((x : Int) - y)).toNat = 2 ^ 64 - (y - x) := by
      rw [BitVec.toNat_ofInt]
      omega
    refine pack_congr cfg (sampleBits_congr ?_)
    rw [hnat]
    exact sub_div_two_pow hshift.le (by omega) (by omega)
  case isFalse hpos =>
    have hnat : (BitVec.ofInt 64 ((x : Int) - y)).toNat = x - y := by
      rw [BitVec.toNat_ofInt]
      omega
    refine pack_congr cfg (sampleBits_congr ?_)
    rw [hnat, Nat.div_eq_of_lt (by omega)]
    exact (Nat.zero_div _).symm

/-- The bits of the zero sample: all zero, or the middle of the range where the format is unsigned (R130). -/
theorem sampleBits_zero (row : Row) : sampleBits row 0 = if row.signed then 0 else 128 := by
  simp [sampleBits]

/-- Settles O23: the bits of the zero sample give equal bytes, in which neither their order nor the padding is seen. -/
theorem zeroSampleIsTheCanonicalPattern : Obligations.ZeroSampleIsTheCanonicalPattern := by
  intro cfg f row r prev hrow
  have hzero : hyperSample row false r prev = 0 := rfl
  have hbytes : sampleBytes cfg.pad24 row (sampleBits row 0) =
      if row.signed then List.replicate row.byteWidth 0x00 else [0x80] := by
    rw [sampleBits_zero]
    cases f <;> cases hrow <;> cases cfg.pad24 <;> decide
  rw [hzero, pack, hbytes]
  cases row.signed <;> simp

/-- Eight bits above the shift, as a number and as a slice of the hyper-sample. -/
theorem ofNat_div_eq_extractLsb' (h : Word) (shift k : Nat) :
    BitVec.ofNat 8 (h.toNat / 2 ^ shift / 2 ^ k) = h.extractLsb' (shift + k) 8 := by
  rw [Nat.div_div_eq_div_mul, ← Nat.pow_add, BitVec.extractLsb', Nat.shiftRight_eq_div_pow]

/-- The bytes of a signed sample, least significant first, padding apart (R108). -/
theorem sampleBytes_signed (pad : Config.Pad24) {row : Row} (hsigned : row.signed = true) (h : Word) :
    sampleBytes pad row (sampleBits row h) =
      (List.range (row.bitDepth / 8)).map (fun k => h.extractLsb' (row.shift + 8 * k) 8) ++
        if row.byteWidth = row.bitDepth / 8 + 1 then [padByte pad row (sampleBits row h)] else [] := by
  have hbits : sampleBits row h = h.toNat / 2 ^ row.shift := by simp [sampleBits, hsigned]
  rw [sampleBytes]
  simp only [hbits, ofNat_div_eq_extractLsb']
  split <;> simp

/-- The padding byte of a sample repeats the sign of the hyper-sample, or is zero (R108, R115). -/
theorem padByte_sampleBits (pad : Config.Pad24) {row : Row} (hsigned : row.signed = true)
    (hdepth : row.shift + (row.bitDepth - 1) = 63) (h : Word) :
    padByte pad row (sampleBits row h) = if pad = .sign ∧ h.getLsbD 63 = true then 0xFF else 0x00 := by
  have hsign : (sampleBits row h).testBit (row.bitDepth - 1) = h.getLsbD 63 := by
    simp [sampleBits, hsigned, Nat.testBit_div_two_pow, ← hdepth, BitVec.getLsbD, Nat.add_comm]
  cases pad <;> simp [padByte, hsign]

/-- The byte of an unsigned sample is the top byte with its sign bit flipped (R110). -/
theorem pack_u8 (cfg : Config.Params) {row : Row} (hrow : describe .u8 = some row) (h : Word) :
    pack cfg row h = [h.extractLsb' 56 8 + 128] := by
  cases hrow
  have hbyte : BitVec.ofNat 8 ((h.toNat / 2 ^ 56 + 128) % 256) = h.extractLsb' 56 8 + 128 := by
    rw [BitVec.extractLsb', Nat.shiftRight_eq_div_pow]
    apply BitVec.eq_of_toNat_eq
    simp
  simpa [pack, sampleBytes, sampleBits, Row.shift, Row.bigEndian, List.range_succ] using hbyte

/-- Settles O27: a row's bytes are the slices of the hyper-sample above its shift, in the order the row names. -/
theorem packGivesTheBytesOfEveryFormat : Obligations.PackGivesTheBytesOfEveryFormat := by
  intro cfg h row b pad
  have hpad (hsigned : row.signed = true) (hdepth : row.shift + (row.bitDepth - 1) = 63) :
      padByte cfg.pad24 row (sampleBits row h) = pad := padByte_sampleBits cfg.pad24 hsigned hdepth h
  refine ⟨?_, fun hrow => pack_u8 cfg hrow h, ?_, ?_, ?_, ?_, ?_, ?_, ?_, ?_, ?_, ?_, ?_⟩ <;>
    (intro hrow; cases hrow)
  all_goals
    rw [pack, sampleBytes_signed _ rfl]
    cases cfg.nativeOrder <;>
      simp [Row.shift, Row.bigEndian, List.range_succ, b, hpad rfl rfl]

end Sys2Proof.Machine

namespace Sys2Proof.Machine

/-! ## The memory a SYN leaves -/

theorem Dither.advance_succ (d : Dither) (n : Nat) : Dither.advance (n + 1) d = (Dither.advance n d).next := by
  induction n generalizing d with
  | zero => rfl
  | succ n ih => exact ih d.next

theorem Dither.advance_add (d : Dither) (n k : Nat) :
    Dither.advance k (Dither.advance n d) = Dither.advance (n + k) d := by
  induction k with
  | zero => rfl
  | succ k ih => rw [Dither.advance_succ, ih, ← Nat.add_assoc, Dither.advance_succ]

/-- A stream that goes on from where another stopped has its draws (R131). -/
theorem Dither.prevAt_advance (d : Dither) (tok : Word) (n k : Nat) :
    (Dither.advance n d).prevAt (d.prevAt tok n) k = d.prevAt tok (n + k) := by
  cases k with
  | zero => rfl
  | succ k => rw [Dither.prevAt, Dither.drawAt, Dither.advance_add]; rfl

/-- A stream that goes on from where another stopped has its samples (R131). -/
theorem sampleAt_advance (cfg : Config.Params) (row : Row) (dth : Bool) (d : Dither) (tok : Word) (n k : Nat) :
    sampleAt cfg row dth (Dither.advance n d) (d.prevAt tok n) k = sampleAt cfg row dth d tok (n + k) := by
  rw [sampleAt, sampleAt, Dither.prevAt_advance, Dither.drawAt, Dither.advance_add, ← Dither.drawAt]

/-- The samples of two SYNs on one stream are those of one (R131). -/
theorem memoryAfter_add (cfg : Config.Params) (row : Row) (dth : Bool) (d : Dither) (tok buf : Word) (m : Memory)
    (n k : Nat) :
    memoryAfter cfg row dth (Dither.advance n d) (d.prevAt tok n) (buf + BitVec.ofNat 64 (n * row.byteWidth))
      (memoryAfter cfg row dth d tok buf m n) k = memoryAfter cfg row dth d tok buf m (n + k) := by
  induction k with
  | zero => rfl
  | succ k ih =>
    rw [memoryAfter, ih, sampleAt_advance, BitVec.add_assoc, ← BitVec.ofNat_add, ← Nat.add_mul]
    rfl

theorem length_sampleAt {f : Format} {row : Row} (hrow : describe f = some row) (cfg : Config.Params) (dth : Bool)
    (d : Dither) (tok : Word) (n : Nat) : (sampleAt cfg row dth d tok n).length = row.byteWidth :=
  length_pack cfg hrow _

/-- Below the top of the space, the address of a byte is the sum of its parts. -/
theorem toNat_add_ofNat {addr : Word} {n : Nat} (h : addr.toNat + n < 2 ^ 64) :
    (addr + BitVec.ofNat 64 n).toNat = addr.toNat + n := by
  rw [BitVec.toNat_add, BitVec.toNat_ofNat, Nat.mod_eq_of_lt (by omega : n < 2 ^ 64), Nat.mod_eq_of_lt h]

section
variable {f : Format} {row : Row} (hrow : describe f = some row) (cfg : Config.Params) (dth : Bool) (d : Dither)
  (tok buf : Word) (m : Memory) {n : Nat}
include hrow

/-- The last sample made leaves alone every byte but its own (R125). -/
theorem readByte_memoryAfter_succ_other (hfits : buf.toNat + (n + 1) * row.byteWidth ≤ 2 ^ 64) {a : Nat}
    (ha : a < buf.toNat + n * row.byteWidth ∨ buf.toNat + (n + 1) * row.byteWidth ≤ a) :
    (memoryAfter cfg row dth d tok buf m (n + 1)).readByte a =
      (memoryAfter cfg row dth d tok buf m n).readByte a := by
  refine sameBytesOutside_writeBytes _ _ _ a fun k hk => ?_
  rw [length_sampleAt hrow] at hk
  rw [Nat.succ_mul] at hfits ha
  rw [BitVec.add_assoc, ← BitVec.ofNat_add, toNat_add_ofNat (by omega)]
  omega

/-- The last sample made reads back (R125). -/
theorem readByte_memoryAfter_succ_last (hfits : buf.toNat + (n + 1) * row.byteWidth ≤ 2 ^ 64) {k : Nat}
    (hk : k < row.byteWidth) :
    (memoryAfter cfg row dth d tok buf m (n + 1)).readByte (buf.toNat + n * row.byteWidth + k) =
      (sampleAt cfg row dth d tok n)[k]? := by
  have hlen := length_sampleAt hrow cfg dth d tok n
  rw [Nat.succ_mul] at hfits
  have hback := readByte_writeBytes (memoryAfter cfg row dth d tok buf m n) (buf + BitVec.ofNat 64 (n * row.byteWidth))
    (sampleAt cfg row dth d tok n) (by omega) k (by omega)
  rwa [BitVec.add_assoc, ← BitVec.ofNat_add, toNat_add_ofNat (by omega), ← Nat.add_assoc] at hback

/-- A SYN leaves alone every byte outside its buffer (R125). -/
theorem readByte_memoryAfter_outside (hfits : buf.toNat + n * row.byteWidth ≤ 2 ^ 64) {a : Nat}
    (ha : a < buf.toNat ∨ buf.toNat + n * row.byteWidth ≤ a) :
    (memoryAfter cfg row dth d tok buf m n).readByte a = m.readByte a := by
  induction n with
  | zero => rfl
  | succ n ih =>
    rw [readByte_memoryAfter_succ_other hrow cfg dth d tok buf m hfits (ha.imp_left fun h => Nat.lt_add_right _ h)]
    rw [Nat.succ_mul] at hfits ha
    exact ih (by omega) (by omega)

/-- Every sample of a SYN reads back, since those after it lie above it (R125). -/
theorem readByte_memoryAfter (hfits : buf.toNat + n * row.byteWidth ≤ 2 ^ 64) {j k : Nat} (hj : j < n)
    (hk : k < row.byteWidth) :
    (memoryAfter cfg row dth d tok buf m n).readByte (buf.toNat + j * row.byteWidth + k) =
      (sampleAt cfg row dth d tok j)[k]? := by
  induction n with
  | zero => omega
  | succ n ih =>
    rcases Nat.lt_succ_iff_lt_or_eq.mp hj with hlt | rfl
    · have hbelow : (j + 1) * row.byteWidth ≤ n * row.byteWidth := Nat.mul_le_mul_right _ hlt
      rw [Nat.succ_mul] at hbelow
      rw [readByte_memoryAfter_succ_other hrow cfg dth d tok buf m hfits (.inl (by omega))]
      rw [Nat.succ_mul] at hfits
      exact ih (by omega) hlt
    · exact readByte_memoryAfter_succ_last hrow cfg dth d tok buf m hfits hk

end

/-- Settles O19: by induction on the samples, each of which lies above those before it. -/
theorem synBytesLieInOrder : Obligations.SynBytesLieInOrder := by
  intro cfg f row dth d tok buf m n hrow hfits
  refine ⟨fun j k hj hk => ⟨readByte_memoryAfter hrow cfg dth d tok buf m hfits hj hk, ?_⟩, fun a ha => ?_⟩
  · simpa [length_sampleAt hrow] using hk
  · exact readByte_memoryAfter_outside hrow cfg dth d tok buf m hfits ha

end Sys2Proof.Machine

namespace Sys2Proof.Machine

/-! ## The sentinel formats, and the `done` step -/

/-- Settles O25: the step is the check for a sentinel, and `FINFO` is the format's code. -/
theorem sentinelFormatIsFatal : Obligations.SentinelFormatIsFatal := by
  intro f dth s hf hs t
  have hrow : describe f = none := by rcases hf with rfl | rfl | rfl <;> rfl
  have hfault : raiseFatal .fmtSentinel (f.code.zeroExtend 64) s = t := by
    rw [raiseFatal_of_not_halted _ _ (State.not_halted_of_live hs.1)]
    rcases hf with rfl | rfl | rfl <;> rfl
  rw [exec_rejected_sub ((Instr.isRejected_syn f dth).mpr hrow) hs,
    exec_rejected_sub ((Instr.isRejected_enc f).mpr hrow) hs, Instr.sub_syn, Instr.sub_enc, hfault]
  exact ⟨rfl, rfl⟩

/-- A SYN that has made all its samples is done (R105). -/
theorem synRun_done {row : Row} {dth : Bool} {s : State} (hs : s.BetweenSamples)
    (hdone : s.me.seq.sidx.toNat = s.me.samples) : synRun row dth s = .next (completeLocked (synTokens s)) := by
  obtain ⟨-, hout, hsent⟩ := hs
  rcases synRun_cases row dth s with ⟨ho, -⟩ | ⟨-, hse, -⟩ | ⟨-, -, hmore, -⟩ | ⟨-, -, -, e⟩ | ⟨-, -, hpast, -⟩
  · exact absurd hout ho
  · rw [hsent] at hse; cases hse
  · omega
  · exact e
  · omega

/-- The state a SYN that holds the lock leaves when it is done (R105, R126). -/
theorem completeLocked_synTokens {s : State} (hp : s.active < s.ports.length) :
    completeLocked (synTokens s) = { s with
      lock := .free
      ports := s.ports.set s.active { s.me with
        tok := s.me.seq.prev
        seq := { s.me.seq with phase := .idle, op := none } } } := by
  rw [completeLocked, me_synTokens hp, synTokens, State.setMe_setMe]
  rfl

/-- Settles O16: of the cases of the step in `RUN`, only `done` is left. -/
theorem doneStepReturnsTheToken : Obligations.DoneStepReturnsTheToken := by
  intro f dth s hvalid hs hdone
  obtain ⟨row, hrow⟩ := Option.isSome_iff_exists.mp hvalid
  rw [exec_syn_running dth hrow hs.1, synRun_done hs hdone, completeLocked_synTokens (State.active_lt_of_live hs.1.1)]

end Sys2Proof.Machine

namespace Sys2Proof.Machine

/-! ## A `MemWrite`, part by part -/

/-- A state that a command has brought to another DitherState, lock, memory and acting port. -/
def State.during (s : State) (d : Dither) (k : Lock) (m : Memory) (q : Port) : State :=
  { s with dither := d, lock := k, mem := m, ports := s.ports.set s.active q }

section
variable {s : State} (d : Dither) (k : Lock) (m : Memory) (q : Port)

theorem me_during (hp : s.active < s.ports.length) : (s.during d k m q).me = q := State.me_setMe s q hp

@[simp] theorem during_live : (s.during d k m q).live = s.live := State.setMe_live s q

variable {d k m q} in
/-- What is replaced twice is what it was replaced with last. -/
@[simp] theorem during_during {d' : Dither} {k' : Lock} {m' : Memory} {q' : Port} :
    (s.during d k m q).during d' k' m' q' = s.during d' k' m' q' := by
  simp only [State.during, List.set_set]

theorem running_during (hl : s.live = true) (hq : q.seq.phase = .run) : (s.during d k m q).Running := by
  rw [State.Running, during_live, me_during _ _ _ _ (State.active_lt_of_live hl)]
  exact ⟨hl, hq⟩

theorem active_lt_during (hp : s.active < s.ports.length) :
    (s.during d k m q).active < (s.during d k m q).ports.length := by
  simpa [State.during] using hp

end

@[simp] theorem withOut_withOut (q : Port) (out out' : List (Word × Byte)) :
    (q.withOut out).withOut out' = q.withOut out' := rfl

/-- The next byte write, as the state it leaves. -/
theorem writeNextByte_eq_during {s : State} {a : Word} {b : Byte} {rest : List (Word × Byte)}
    (hout : s.me.seq.out = (a, b) :: rest) :
    writeNextByte s = s.during s.dither s.lock (Memory.writeByte s.mem a.toNat b) (s.me.withOut rest) := by
  rw [writeNextByte, hout]
  rfl

/-- A port that runs its command runs it still after a byte write. -/
theorem running_writeNextByte {s : State} (hs : s.Running) : (writeNextByte s).Running := by
  rcases writeNextByte_cases s with ⟨-, e⟩ | ⟨a, b, rest, hout, -⟩
  · rwa [e]
  · rw [writeNextByte_eq_during hout, State.Running, during_live, me_during _ _ _ _ (State.active_lt_of_live hs.1)]
    exact hs

/-- A byte write is taken from those left. -/
theorem out_writeNextByte {s : State} (hp : s.active < s.ports.length) :
    (writeNextByte s).me.seq.out = s.me.seq.out.tail := by
  cases hout : s.me.seq.out with
  | nil =>
    rcases writeNextByte_cases s with ⟨-, e⟩ | ⟨a, b, rest, hcons, -⟩
    · rw [e, hout]; rfl
    · rw [hout] at hcons; cases hcons
  | cons w rest => rw [me_writeNextByte hp hout]; rfl

/-- A command that performs one byte write in each of its parts, and finishes with the last, performs `j + 1` of them in
as many steps (R42, R46). -/
theorem execTimes_writes {i : Instr} {finish : State → State}
    (hstep : ∀ u : State, u.Running → u.me.seq.out ≠ [] → exec i u = .next (finish (writeNextByte u)))
    (hmid : ∀ u : State, u.me.seq.out ≠ [] → finish u = u) (j : Nat) {s : State} (hs : s.Running)
    (hj : j < s.me.seq.out.length) : execTimes i (j + 1) s = .next (finish (writeNextByte^[j + 1] s)) := by
  have hp := State.active_lt_of_live hs.1
  have hfirst := hstep s hs (List.ne_nil_of_length_pos (Nat.zero_lt_of_lt hj))
  induction j generalizing s with
  | zero => rw [execTimes_of_next hfirst]; rfl
  | succ j ih =>
    have hleft : j < (writeNextByte s).me.seq.out.length := by
      rw [out_writeNextByte hp, List.length_tail]
      omega
    have hne := List.ne_nil_of_length_pos (Nat.zero_lt_of_lt hleft)
    have hnext := running_writeNextByte hs
    rw [hmid _ hne] at hfirst
    rw [execTimes_of_next hfirst, ih hnext hleft (State.active_lt_of_live hnext.1) (hstep _ hnext hne),
      ← Function.iterate_succ_apply]

/-- Where a command's step is that of another state, so are all from there on. -/
theorem execTimes_congr {i : Instr} {s u : State} (h : exec i s = exec i u) (n : Nat) :
    execTimes i (n + 1) s = execTimes i (n + 1) u := by
  rw [execTimes, execTimes, h]

theorem execTimes_add {i : Instr} {s t : State} {n : Nat} (h : execTimes i n s = .next t) (k : Nat) :
    execTimes i (n + k) s = execTimes i k t := by
  induction n generalizing s with
  | zero => cases h; rw [Nat.zero_add]
  | succ n ih =>
    rw [Nat.succ_add]
    rw [execTimes] at h ⊢
    cases hexec : exec i s with
    | next u => rw [hexec] at h; exact ih h
    | fault r => rw [hexec] at h; cases h
    | refused r => rw [hexec] at h; cases h

/-- A `MemWrite` of admitted addresses performs the first of its byte writes (R42, R49). -/
theorem memWrite_admitted {addr : Word} {bytes : List Byte} {s : State} (h : s.Admits addr bytes.length) :
    memWrite addr bytes s = .next (writeNextByte (s.setMe (s.me.withOut (byteWrites addr bytes)))) := by
  rw [memWrite, firstNotAdmitted_none s.platform addr bytes.length h]

theorem byteWrites_eq_nil {addr : Word} {bytes : List Byte} : byteWrites addr bytes = [] ↔ bytes = [] := by
  rw [← List.length_eq_zero_iff, length_byteWrites, List.length_eq_zero_iff]

/-- The byte writes of a `MemWrite` that has not performed any, in a state that a command has reached. -/
theorem writeNextByte_iterate_during {s : State} {d : Dither} {k : Lock} {m : Memory} {q : Port} {addr : Word}
    {bytes : List Byte} (hp : s.active < s.ports.length) {j : Nat} (hj : j ≤ bytes.length) :
    writeNextByte^[j] (s.during d k m (q.withOut (byteWrites addr bytes))) =
      s.during d k (Memory.writeBytes m addr (bytes.take j)) (q.withOut ((byteWrites addr bytes).drop j)) := by
  have hme := me_during d k m (q.withOut (byteWrites addr bytes)) hp
  rw [writeNextByte_iterate j (active_lt_during d k m _ hp) (by rw [hme]; rfl) hj, hme]
  simp only [State.during, State.setMe, State.setPort, List.set_set, withOut_withOut]

end Sys2Proof.Machine

namespace Sys2Proof.Machine

/-! ## ENC, step by step -/

/-- An ENC whose `MemWrite` has begun with no byte of it written yet: its first part goes on from here. -/
def encBegun (row : Row) (s : State) : State :=
  s.during s.dither s.lock s.mem
    ((s.me.withSent true).withOut (byteWrites s.me.buf (pack s.cfg row s.me.hs)))

theorem me_encBegun (row : Row) {s : State} (hp : s.active < s.ports.length) : (encBegun row s).me =
    (s.me.withSent true).withOut (byteWrites s.me.buf (pack s.cfg row s.me.hs)) := me_during _ _ _ _ hp

theorem encBegun_running (row : Row) {s : State} (hs : s.Running) : (encBegun row s).Running :=
  running_during _ _ _ _ hs.1 hs.2

section
variable {f : Format} {row : Row} {s : State} (hrow : describe f = some row)
include hrow

/-- A further part of the run step of ENC writes the next byte (R134). -/
theorem exec_enc_writes (hs : s.Running) (hout : s.me.seq.out ≠ []) : exec (.enc f) s = .next (writeNextByte s) := by
  rw [exec_enc_running hrow hs]
  rcases encRun_cases row s with ⟨-, e⟩ | ⟨hnil, -⟩ | ⟨hnil, -⟩
  · exact e
  · exact absurd hnil hout
  · exact absurd hnil hout

/-- An ENC completes once all its bytes are written (R51, R134). -/
theorem exec_enc_completes (hs : s.Running) (hout : s.me.seq.out = []) (hsent : s.me.seq.sent = true) :
    exec (.enc f) s = .next { s with ports := s.ports.set s.active { s.me with
      seq := { s.me.seq with phase := .idle, op := none, sent := false } } } := by
  rw [exec_enc_running hrow hs]
  rcases encRun_cases row s with ⟨hne, -⟩ | ⟨-, -, e⟩ | ⟨-, hno, -⟩
  · exact absurd hout hne
  · rw [e, complete, State.me_setMe s _ (State.active_lt_of_live hs.1), State.setMe_setMe]
    rfl
  · rw [hsent] at hno; cases hno

/-- The first part of the run step of ENC is the first byte write of its `MemWrite` (R134). -/
theorem exec_enc_begins (hs : s.BetweenSamples) (hadmits : s.Admits s.me.buf row.byteWidth) :
    exec (.enc f) s = exec (.enc f) (encBegun row s) := by
  have hp := State.active_lt_of_live hs.1.1
  have hlen := length_pack s.cfg hrow s.me.hs
  have hpos := byteWidth_pos hrow
  have hme : (s.setMe (s.me.withSent true)).me = s.me.withSent true := State.me_setMe s _ hp
  have hleft : (encBegun row s).me.seq.out ≠ [] := by
    rw [me_encBegun row hp]
    exact List.ne_nil_of_length_pos (by simpa [hlen] using hpos)
  rw [exec_enc_running hrow hs.1, encRun_begins hs,
    memWrite_admitted (s := s.setMe (s.me.withSent true)) (by rwa [hlen]), hme, State.setMe_setMe,
    exec_enc_writes hrow (encBegun_running row hs.1) hleft]
  rfl

/-- The `W` parts of the run step of ENC (R134). -/
theorem execTimes_enc_writes (hs : s.BetweenSamples) (hadmits : s.Admits s.me.buf row.byteWidth) :
    execTimes (.enc f) row.byteWidth s = .next (s.during s.dither s.lock
      (Memory.writeBytes s.mem s.me.buf (pack s.cfg row s.me.hs)) ((s.me.withSent true).withOut [])) := by
  have hp := State.active_lt_of_live hs.1.1
  have hlen := length_pack s.cfg hrow s.me.hs
  obtain ⟨n, hn⟩ := Nat.exists_eq_add_one_of_ne_zero (byteWidth_pos hrow).ne'
  have hwrites := execTimes_writes (finish := id) (fun u hu hne => exec_enc_writes hrow hu hne) (fun _ _ => rfl) n
    (encBegun_running row hs.1) (by simp [me_encBegun row hp, hlen, hn])
  rw [hn, execTimes_congr (exec_enc_begins hrow hs hadmits), hwrites, encBegun,
    writeNextByte_iterate_during hp (by omega), ← hn, List.take_of_length_le (by omega),
    List.drop_of_length_le (by simp [hlen])]
  rfl

/-- The completion of an ENC, in a state that it has reached (R134). -/
theorem exec_enc_completes_during {d : Dither} {k : Lock} {m : Memory} {q : Port} (hl : s.live = true)
    (hrun : q.seq.phase = .run) (hout : q.seq.out = []) (hsent : q.seq.sent = true) :
    exec (.enc f) (s.during d k m q) = .next (s.during d k m (q.completed.withSent false)) := by
  have hme := me_during d k m q (State.active_lt_of_live hl)
  rw [exec_enc_completes hrow (running_during d k m q hl hrun) (by rw [hme]; exact hout)
    (by rw [hme]; exact hsent), hme]
  exact congrArg _ during_during

/-- The whole of ENC: accepted, written byte by byte, completed (R134). -/
theorem execTimes_enc (hs : s.Idle) (hout : s.me.seq.out = []) (hsent : s.me.seq.sent = false)
    (hadmits : s.Admits s.me.buf row.byteWidth) : execTimes (.enc f) (row.byteWidth + 2) s = .next { s with
      mem := Memory.writeBytes s.mem s.me.buf (pack s.cfg row s.me.hs)
      ports := s.ports.set s.active { s.me with
        cmd := commandValue (.enc f)
        seq := { s.me.seq with phase := .idle, op := none } } } := by
  have haccept : exec (.enc f) s = .next (s.during s.dither s.lock s.mem (s.me.accepting (.enc f) .run)) := by
    rw [exec_enc_idle hrow hs, accept_of_not_takesLock (Instr.takesLock_enc f)]
    rfl
  have hrunning := running_during s.dither s.lock s.mem (s.me.accepting (.enc f) .run) hs.1 rfl
  have hme := me_during s.dither s.lock s.mem (s.me.accepting (.enc f) .run) (State.active_lt_of_live hs.1)
  have hwrites := execTimes_enc_writes hrow ⟨hrunning, by rw [hme]; exact hout, by rw [hme]; exact hsent⟩
    (by rw [hme]; exact hadmits)
  rw [hme, during_during] at hwrites
  rw [execTimes_of_next haccept, execTimes_add hwrites,
    execTimes_of_next (exec_enc_completes_during hrow hs.1 rfl rfl rfl), execTimes]
  simp only [State.during, Port.accepting, Port.withSent, Port.withOut, Port.completed, ← hout, ← hsent]

end

/-- Settles O28: the first part is a byte write of the `MemWrite` that has just begun, and the whole command is the
parts one after another. -/
theorem encWritesThePackedSample : Obligations.EncWritesThePackedSample := by
  intro f row s hrow
  refine ⟨fun hs hadmits b rest hpack => ?_, fun a b rest hs => ?_, fun hs => exec_enc_completes hrow hs,
    fun hs => execTimes_enc hrow hs⟩
  · have hp := State.active_lt_of_live hs.1.1
    have hme := me_encBegun row hp
    have hout : (encBegun row s).me.seq.out = (s.me.buf, b) :: byteWrites (s.me.buf + 1) rest := by
      rw [hme, hpack]; rfl
    rw [exec_enc_begins hrow hs hadmits, exec_enc_writes hrow (encBegun_running row hs.1) (by simp [hout]),
      writeNextByte_eq_during hout, hme, encBegun, during_during]
    rfl
  · rw [exec_enc_writes hrow hs.1 (by simp [hs.2]), writeNextByte_eq_during hs.2]
    rfl

end Sys2Proof.Machine

namespace Sys2Proof.Machine

/-! ## SYN, step by step -/

/-- The acting port once its sample has begun: with `LOCK_GRAIN = SAMPLE` it is marked that the lock is this sample's
(R137; log 28). -/
def State.begunPort (s : State) : Port := s.me.withSent (s.cfg.lockGrain == .sample)

/-- A SYN whose next sample has begun with no byte of it written yet: its first part goes on from here (R106). -/
def synBegun (row : Row) (dth : Bool) (s : State) : State :=
  s.during s.dither.next s.lock s.mem
    (s.begunPort.withOut (byteWrites s.me.seq.cur (synBytes row dth s)))

theorem me_synBegun (row : Row) (dth : Bool) {s : State} (hp : s.active < s.ports.length) : (synBegun row dth s).me =
    s.begunPort.withOut (byteWrites s.me.seq.cur (synBytes row dth s)) :=
  me_during _ _ _ _ hp

theorem synBegun_running (row : Row) (dth : Bool) {s : State} (hs : s.Running) : (synBegun row dth s).Running :=
  running_during _ _ _ _ hs.1 hs.2

theorem length_synBytes {f : Format} {row : Row} (hrow : describe f = some row) (dth : Bool) (s : State) :
    (synBytes row dth s).length = row.byteWidth := length_pack s.cfg hrow _

/-- A byte write of a sample, and the end of the sample with the last one, as the state they leave (R106). -/
theorem endSample_writeNextByte (row : Row) {s : State} (hp : s.active < s.ports.length) {a : Word} {b : Byte}
    {rest : List (Word × Byte)} (hout : s.me.seq.out = (a, b) :: rest) :
    endSample row (writeNextByte s) = s.during s.dither s.lock (Memory.writeByte s.mem a.toNat b)
      (if rest = [] then (s.me.withOut []).pastSample row.byteWidth s.dither.d else s.me.withOut rest) := by
  have hleft := out_writeNextByte hp
  rw [hout, List.tail_cons] at hleft
  rcases endSample_cases row (writeNextByte s) with ⟨hnil, e⟩ | ⟨hne, e⟩
  · have hrest : rest = [] := hleft.symm.trans hnil
    rw [e, me_writeNextByte hp hout, writeNextByte_eq_during hout, if_pos hrest, hrest]
    exact during_during (m' := Memory.writeByte s.mem a.toNat b)
  · rw [e, writeNextByte_eq_during hout, if_neg (hleft ▸ hne)]

/-- A port that has no byte write left is not changed by being given none. -/
theorem begunPort_withOut_nil {s : State} (hout : s.me.seq.out = []) : s.begunPort.withOut [] = s.begunPort := by
  rw [State.begunPort, ← hout]; rfl

section
variable {f : Format} {row : Row} {s : State} (hrow : describe f = some row) (dth : Bool)
include hrow

/-- A further part of a `sample` step writes the next byte (R106). -/
theorem exec_syn_writes (hs : s.Running) (hout : s.me.seq.out ≠ []) :
    exec (.syn f dth) s = .next (endSample row (writeNextByte s)) := by
  rw [exec_syn_running dth hrow hs]
  rcases synRun_cases row dth s with ⟨-, e⟩ | ⟨hnil, -⟩ | ⟨hnil, -⟩ | ⟨hnil, -⟩ | ⟨hnil, -⟩
  · exact e
  all_goals exact absurd hnil hout

/-- With `LOCK_GRAIN = SAMPLE` the lock is given back once all bytes of a sample are written (R137). -/
theorem exec_syn_releases (hs : s.Running) (hout : s.me.seq.out = []) (hsent : s.me.seq.sent = true) :
    exec (.syn f dth) s = .next (releaseSample s) := by
  rw [exec_syn_running dth hrow hs]
  rcases synRun_cases row dth s with ⟨hne, -⟩ | ⟨-, -, e⟩ | ⟨-, hno, -⟩ | ⟨-, hno, -⟩ | ⟨-, hno, -⟩
  · exact absurd hout hne
  · exact e
  all_goals rw [hsent] at hno; cases hno

/-- The first part of a `sample` step makes the draw and is the first byte write of the sample (R106). -/
theorem exec_syn_begins (hs : s.BetweenSamples) (hmore : s.me.seq.sidx.toNat < s.me.samples)
    (hadmits : s.Admits s.me.seq.cur row.byteWidth) :
    exec (.syn f dth) s = exec (.syn f dth) (synBegun row dth s) := by
  have hp := State.active_lt_of_live hs.1.1
  have hlen := length_synBytes hrow dth s
  have hpos := byteWidth_pos hrow
  have hbegin : beginSample s = s.during s.dither.next s.lock s.mem s.begunPort := rfl
  have hleft : (synBegun row dth s).me.seq.out ≠ [] := by
    rw [me_synBegun row dth hp]
    exact List.ne_nil_of_length_pos (by simpa [hlen] using hpos)
  have hwrite := memWrite_admitted (s := beginSample s) (by rwa [hlen])
  have hme : (beginSample s).me = s.begunPort := me_during _ _ _ _ hp
  have hbegun : (beginSample s).setMe ((beginSample s).me.withOut (byteWrites s.me.seq.cur (synBytes row dth s))) =
      synBegun row dth s := by
    rw [hme, hbegin]
    exact during_during
  rw [hbegun] at hwrite
  rw [exec_syn_running dth hrow hs.1, synRun_begins hs hmore, hwrite,
    exec_syn_writes hrow dth (synBegun_running row dth hs.1) hleft]
  rfl

/-- The first part of a `sample` step, as the state it leaves (R106). -/
theorem exec_syn_first (hs : s.BetweenSamples) (hmore : s.me.seq.sidx.toNat < s.me.samples)
    (hadmits : s.Admits s.me.seq.cur row.byteWidth) {b : Byte} {rest : List Byte}
    (hbytes : synBytes row dth s = b :: rest) :
    exec (.syn f dth) s = .next (s.during s.dither.next s.lock (Memory.writeByte s.mem s.me.seq.cur.toNat b)
      (if rest = [] then s.begunPort.pastSample 1 s.dither.next.d
        else s.begunPort.withOut (byteWrites (s.me.seq.cur + 1) rest))) := by
  have hp := State.active_lt_of_live hs.1.1
  have hme := me_synBegun row dth hp
  have hout : (synBegun row dth s).me.seq.out = (s.me.seq.cur, b) :: byteWrites (s.me.seq.cur + 1) rest := by
    rw [hme, hbytes]; rfl
  have hlen := length_synBytes hrow dth s
  have hbegun : (synBegun row dth s).active < (synBegun row dth s).ports.length := active_lt_during _ _ _ _ hp
  rw [exec_syn_begins hrow dth hs hmore hadmits,
    exec_syn_writes hrow dth (synBegun_running row dth hs.1) (by simp [hout]),
    endSample_writeNextByte row hbegun hout, hme, synBegun, during_during]
  simp only [byteWrites_eq_nil]
  split
  case isTrue hrest =>
    have hwidth : row.byteWidth = 1 := by rw [← hlen, hbytes, hrest]; rfl
    rw [hwidth, withOut_withOut, begunPort_withOut_nil hs.2.1]
    rfl
  case isFalse => rfl

/-- The first parts of a `sample` step (R46, R106). -/
theorem execTimes_syn_parts (hs : s.BetweenSamples) (hmore : s.me.seq.sidx.toNat < s.me.samples)
    (hadmits : s.Admits s.me.seq.cur row.byteWidth) {j : Nat} (hpos : 0 < j) (hj : j ≤ row.byteWidth) :
    execTimes (.syn f dth) j s = .next (endSample row (s.during s.dither.next s.lock
      (Memory.writeBytes s.mem s.me.seq.cur ((synBytes row dth s).take j))
      (s.begunPort.withOut ((byteWrites s.me.seq.cur (synBytes row dth s)).drop j)))) := by
  have hp := State.active_lt_of_live hs.1.1
  have hlen := length_synBytes hrow dth s
  obtain ⟨n, rfl⟩ := Nat.exists_eq_add_one_of_ne_zero hpos.ne'
  have hwrites := execTimes_writes (finish := endSample row) (fun u hu hne => exec_syn_writes hrow dth hu hne)
    (fun u hne => (endSample_cases row u).elim (fun h => absurd h.1 hne) And.right) n (synBegun_running row dth hs.1)
    (by simpa [me_synBegun row dth hp, hlen] using hj)
  rw [execTimes_congr (exec_syn_begins hrow dth hs hmore hadmits), hwrites, synBegun,
    writeNextByte_iterate_during hp (by omega)]

/-- A whole `sample` step, in its `W` parts (R106). -/
theorem execTimes_syn_sample (hs : s.BetweenSamples) (hmore : s.me.seq.sidx.toNat < s.me.samples)
    (hadmits : s.Admits s.me.seq.cur row.byteWidth) :
    execTimes (.syn f dth) row.byteWidth s = .next (s.during s.dither.next s.lock
      (Memory.writeBytes s.mem s.me.seq.cur (synBytes row dth s))
      (s.begunPort.pastSample row.byteWidth s.dither.next.d)) := by
  have hlen := length_synBytes hrow dth s
  have hme := me_during s.dither.next s.lock (Memory.writeBytes s.mem s.me.seq.cur (synBytes row dth s))
    s.begunPort (State.active_lt_of_live hs.1.1)
  rw [execTimes_syn_parts hrow dth hs hmore hadmits (byteWidth_pos hrow) le_rfl,
    List.take_of_length_le hlen.le, List.drop_of_length_le (by simp [hlen]), begunPort_withOut_nil hs.2.1]
  rcases endSample_cases row (s.during s.dither.next s.lock (Memory.writeBytes s.mem s.me.seq.cur (synBytes row dth s))
    s.begunPort) with ⟨-, e⟩ | ⟨hne, -⟩
  · rw [e, hme]
    exact congrArg _ during_during
  · rw [hme] at hne
    exact absurd hs.2.1 hne

/-- A part of a `sample` step that is not the last (R46, R106). -/
theorem execTimes_syn_part (hs : s.BetweenSamples) (hmore : s.me.seq.sidx.toNat < s.me.samples)
    (hadmits : s.Admits s.me.seq.cur row.byteWidth) {j : Nat} (hpos : 0 < j) (hj : j < row.byteWidth) :
    execTimes (.syn f dth) j s = .next (s.during s.dither.next s.lock
      (Memory.writeBytes s.mem s.me.seq.cur ((synBytes row dth s).take j))
      (s.begunPort.withOut ((byteWrites s.me.seq.cur (synBytes row dth s)).drop j))) := by
  have hlen := length_synBytes hrow dth s
  have hme := me_during s.dither.next s.lock (Memory.writeBytes s.mem s.me.seq.cur ((synBytes row dth s).take j))
    (s.begunPort.withOut ((byteWrites s.me.seq.cur (synBytes row dth s)).drop j))
    (State.active_lt_of_live hs.1.1)
  rw [execTimes_syn_parts hrow dth hs hmore hadmits hpos hj.le]
  rcases endSample_cases row _ with ⟨hnil, -⟩ | ⟨-, e⟩
  · rw [hme, Port.withOut_seq_out, List.drop_eq_nil_iff, length_byteWrites, hlen] at hnil
    omega
  · rw [e]

end

/-- Between the samples of a SYN that locks the whole command, no mark is set or left. -/
theorem withSent_call {cfg : Config.Params} {q : Port} (hgrain : cfg.lockGrain = .call) (hsent : q.seq.sent = false) :
    q.withSent (cfg.lockGrain == .sample) = q := by
  have hmark : (cfg.lockGrain == .sample) = q.seq.sent := by rw [hgrain, hsent]; rfl
  rw [hmark]; rfl

/-- Settles O15: the parts of a `sample` step are the byte writes of the sample that has just begun, and the last of
them ends it. -/
theorem sampleStepWritesOneSample : Obligations.SampleStepWritesOneSample := by
  intro f dth row s hrow
  constructor
  · intro hs hgrain hmore hadmits sample
    have hsame : s.begunPort = s.me := withSent_call hgrain hs.2.2
    have hsample : sample = synBytes row dth s := rfl
    rw [hsample]
    refine ⟨fun b rest hbytes => ?_, fun j hpos hj => ?_, ?_⟩
    · rw [exec_syn_first hrow dth hs hmore hadmits hbytes, hsame]
      split <;> rfl
    · rw [execTimes_syn_part hrow dth hs hmore hadmits hpos hj, hsame]
      rfl
    · rw [execTimes_syn_sample hrow dth hs hmore hadmits, hsame]
      rfl
  · intro a b rest hs
    rw [exec_syn_writes hrow dth hs.1 (by simp [hs.2]),
      endSample_writeNextByte row (State.active_lt_of_live hs.1.1) hs.2]
    split <;> rfl

end Sys2Proof.Machine

namespace Sys2Proof.Machine

/-! ## SYN with `LOCK_GRAIN = SAMPLE` -/

/-- A SYN whose range fits is accepted with its stream loaded where each sample is locked (R50, R137). -/
theorem synAccept_sample {i : Instr} {row : Row} {s : State} (hfits : s.me.rangeFits row.byteWidth = true)
    (hgrain : s.cfg.lockGrain = .sample) : synAccept i row s = .next (accept i (s.setMe s.me.loadStream)) := by
  rcases synAccept_cases i row s with ⟨hno, -⟩ | ⟨-, hcall, -⟩ | ⟨-, -, e⟩
  · rw [hfits] at hno; cases hno
  · rw [hgrain] at hcall; cases hcall
  · exact e

/-- The step of a waiting SYN with samples of its own locks left is an acquire step (R137). -/
theorem synWait_sample {s : State} (i : Instr) (hgrain : s.cfg.lockGrain = .sample)
    (hleft : s.me.samplesDone = false) : synWait i s = .next (acquire i id s) := by
  rcases synWait_cases i s with ⟨hcall, -⟩ | ⟨-, hdone, -⟩ | ⟨-, -, e⟩
  · rw [hgrain] at hcall; cases hcall
  · rw [hleft] at hdone; cases hdone
  · exact e

section
variable {f : Format} {row : Row} {s : State} (hrow : describe f = some row) (dth : Bool)
include hrow

/-- The accepting step of a SYN whose samples are locked one by one, as the state it leaves (R137). -/
theorem exec_syn_accepts_sample (hs : s.Idle) (hfits : s.me.rangeFits row.byteWidth = true)
    (hgrain : s.cfg.lockGrain = .sample) : exec (.syn f dth) s = .next
      (s.during s.dither s.lock s.mem (s.me.loadStream.accepting (.syn f dth) .waitLock)) := by
  rw [exec_syn_idle dth hrow hs, synAccept_sample hfits hgrain, accept, Instr.takesLock_syn,
    State.me_setMe s _ (State.active_lt_of_live hs.1), State.setMe_setMe]
  rfl

/-- The acquire step of a sample that has a lock of its own (R137). -/
theorem exec_syn_acquires_sample (hs : s.Waiting) (hgrain : s.cfg.lockGrain = .sample) (hseed : s.seeded = true)
    (hfree : s.lock = .free) (hleft : s.me.seq.sidx = 0 ∨ s.me.seq.sidx.toNat ≠ 2 * s.me.nfr.toNat) :
    exec (.syn f dth) s = .next (s.during s.dither (.held s.active) s.mem (s.me.withPhase .run)) := by
  rw [exec_syn_waiting dth hrow hs, synWait_sample _ hgrain (samplesDone_eq_false hleft),
    acquire_of_free hfree (.inl hseed)]
  rfl

/-- The `done` step of a SYN whose samples are locked one by one needs no lock (R137). -/
theorem exec_syn_returns_token (hs : s.Waiting) (hgrain : s.cfg.lockGrain = .sample) (hne : s.me.seq.sidx ≠ 0)
    (hdone : s.me.seq.sidx.toNat = 2 * s.me.nfr.toNat) : exec (.syn f dth) s = .next
      (s.during s.dither s.lock s.mem (Port.completed { s.me with tok := s.me.seq.prev })) := by
  have hsamples : s.me.samplesDone = true := by
    simpa [Port.samplesDone, Port.samples, hdone] using hne
  rw [exec_syn_waiting dth hrow hs]
  rcases synWait_cases (.syn f dth) s with ⟨hcall, -⟩ | ⟨-, -, e⟩ | ⟨-, hleft, -⟩
  · rw [hgrain] at hcall; cases hcall
  · rw [e, complete, me_synTokens (State.active_lt_of_live hs.1), synTokens, State.setMe_setMe]
    rfl
  · rw [hsamples] at hleft; cases hleft

end

/-- Settles O17: each clause is one step of the SYN, in the phase and at the sample it names. -/
theorem sampleGrainLocksEachSample : Obligations.SampleGrainLocksEachSample := by
  intro f dth row s hrow hgrain
  have hbegun : s.begunPort = s.me.withSent true := by rw [State.begunPort, hgrain]; rfl
  refine ⟨fun hs hfits => ?_, fun hs hseed hfree hleft => ?_, fun hs hmore hadmits b rest hbytes => ?_,
    fun hs hout hsent => ?_, fun hs hne hdone => ?_⟩
  · rw [exec_syn_accepts_sample hrow dth hs hfits hgrain]
    rfl
  · rw [exec_syn_acquires_sample hrow dth hs hgrain hseed hfree (hleft.symm.imp And.left Nat.ne_of_lt)]
    rfl
  · rw [exec_syn_first hrow dth hs hmore hadmits hbytes, hbegun]
    split <;> rfl
  · rw [exec_syn_releases hrow dth hs hout hsent]
    rfl
  · rw [exec_syn_returns_token hrow dth hs hgrain hne hdone]
    rfl

end Sys2Proof.Machine

namespace Sys2Proof.Machine

/-! ## A whole SYN -/

/-- The port of a SYN that has made `j` samples of a stream that began with its token at the DitherState `d` (R106). -/
def Port.synAt (q : Port) (i : Instr) (width : Nat) (d : Dither) (ph : Phase) (j : Nat) : Port :=
  { q with
    cmd := commandValue i
    seq := { q.seq with
      phase := ph
      cur := q.buf + BitVec.ofNat 64 (j * width)
      sidx := BitVec.ofNat 33 j
      prev := d.prevAt q.tok j
      op := some i } }

/-- Where a SYN that an idle port issued in `s` stands after `j` of its samples (R106, R125). -/
def State.synAt (s : State) (f : Format) (dth : Bool) (row : Row) (ph : Phase) (k : Lock) (j : Nat) : State :=
  s.during (Dither.advance j s.dither) k (memoryAfter s.cfg row dth s.dither s.me.tok s.me.buf s.mem j)
    (s.me.synAt (.syn f dth) row.byteWidth s.dither ph j)

/-- What a SYN of `n` samples that an idle port issued in `s` leaves (R105, R125, R126). -/
def State.afterSyn (s : State) (f : Format) (dth : Bool) (row : Row) (n : Nat) : State :=
  s.during (Dither.advance n s.dither) s.lock (memoryAfter s.cfg row dth s.dither s.me.tok s.me.buf s.mem n)
    (Port.completed { s.me.synAt (.syn f dth) row.byteWidth s.dither .run n with tok := s.dither.prevAt s.me.tok n })

/-- A state in which a SYN that the acting port issues runs to its end: the port is idle with nothing left over, the
lock is free and the generator seeded (R95, R98). -/
structure State.SynReady (s : State) : Prop where
  idle : s.Idle
  out : s.me.seq.out = []
  sent : s.me.seq.sent = false
  free : s.lock = .free
  seeded : s.seeded = true

/-- Before its first sample a SYN has loaded its stream (R105). -/
theorem Port.synAt_zero (q : Port) (i : Instr) (width : Nat) (d : Dither) (ph : Phase) :
    q.synAt i width d ph 0 = q.loadStream.accepting i ph := by
  have hcur : q.buf + BitVec.ofNat 64 (0 * width) = q.buf := by simp
  rw [Port.synAt, hcur]
  rfl

/-- After one more sample the stream has moved on by its width and its draw (R106). -/
theorem Port.pastSample_synAt (q : Port) (i : Instr) (width : Nat) (d : Dither) (ph : Phase) (sent : Bool) (j : Nat) :
    ((q.synAt i width d ph j).withSent sent).pastSample width (Dither.advance j d).next.d =
      (q.synAt i width d ph (j + 1)).withSent sent := by
  simp only [Port.pastSample, Port.withSent, Port.synAt, Nat.succ_mul, BitVec.ofNat_add, BitVec.add_assoc]
  rfl

theorem toNat_ofNat_of_le_samples {q : Port} {j : Nat} (hj : j ≤ q.samples) : (BitVec.ofNat 33 j).toNat = j := by
  have := samples_lt q
  rw [BitVec.toNat_ofNat, Nat.mod_eq_of_lt (by omega)]

/-- A command that takes `k` steps from each of a row of states to the next takes `n * k` to the `n`-th. -/
theorem execTimes_mul {i : Instr} {k n : Nat} {state : Nat → State}
    (hstep : ∀ j, j < n → execTimes i k (state j) = .next (state (j + 1))) :
    execTimes i (n * k) (state 0) = .next (state n) := by
  induction n with
  | zero => rw [Nat.zero_mul]; rfl
  | succ n ih =>
    rw [Nat.succ_mul, execTimes_add (ih fun j hj => hstep j (by omega)), hstep n (by omega)]

/-- The acquire step of a SYN that holds the lock for the whole command (R105). -/
theorem exec_syn_acquires_call {f : Format} {row : Row} {s : State} (hrow : describe f = some row) (dth : Bool)
    (hs : s.Waiting) (hgrain : s.cfg.lockGrain = .call) (hseed : s.seeded = true) (hfree : s.lock = .free) :
    exec (.syn f dth) s = .next (s.during s.dither (.held s.active) s.mem (s.me.loadStream.withPhase .run)) := by
  rw [exec_syn_waiting dth hrow hs, synWait_call hgrain, acquire_of_free hfree (.inl hseed)]
  rfl

theorem releaseSample_eq_during (s : State) : releaseSample s =
    s.during s.dither .free s.mem ((s.me.withSent false).withPhase .waitLock) := rfl

section
variable {f : Format} {row : Row} {s : State} (hrow : describe f = some row) (dth : Bool)

/-- The addresses of one sample are among those of the SYN (R125). -/
theorem admits_sample {n j : Nat} (hadmits : s.Admits s.me.buf (n * row.byteWidth)) (hj : j < n) :
    s.Admits (s.me.buf + BitVec.ofNat 64 (j * row.byteWidth)) row.byteWidth := fun k hk => by
  have hlast : (j + 1) * row.byteWidth ≤ n * row.byteWidth := Nat.mul_le_mul_right _ hj
  rw [Nat.succ_mul] at hlast
  rw [BitVec.add_assoc, ← BitVec.ofNat_add]
  exact hadmits _ (by omega)

section
variable (hs : s.SynReady)
include hs

theorem me_synAt (ph : Phase) (k : Lock) (j : Nat) :
    (s.synAt f dth row ph k j).me = s.me.synAt (.syn f dth) row.byteWidth s.dither ph j :=
  me_during _ _ _ _ (State.active_lt_of_live hs.idle.1)

theorem synAt_betweenSamples (k : Lock) (j : Nat) : (s.synAt f dth row .run k j).BetweenSamples := by
  refine ⟨running_during _ _ _ _ hs.idle.1 rfl, ?_, ?_⟩ <;> rw [me_synAt dth hs]
  · exact hs.out
  · exact hs.sent

theorem synAt_waiting (k : Lock) (j : Nat) : (s.synAt f dth row .waitLock k j).Waiting :=
  ⟨(during_live _ _ _ _).trans hs.idle.1, by rw [me_synAt dth hs]; rfl⟩

include hrow

/-- One sample of a SYN, in its `W` parts (R106). -/
theorem execTimes_synAt_sample (hadmits : s.Admits s.me.buf (s.me.samples * row.byteWidth)) (k : Lock) {j : Nat}
    (hj : j < s.me.samples) : execTimes (.syn f dth) row.byteWidth (s.synAt f dth row .run k j) = .next
      (s.during (Dither.advance (j + 1) s.dither) k
        (memoryAfter s.cfg row dth s.dither s.me.tok s.me.buf s.mem (j + 1))
        ((s.me.synAt (.syn f dth) row.byteWidth s.dither .run (j + 1)).withSent (s.cfg.lockGrain == .sample))) := by
  have hme := me_synAt (f := f) (row := row) dth hs .run k j
  have hbytes : synBytes row dth (s.synAt f dth row .run k j) = sampleAt s.cfg row dth s.dither s.me.tok j := by
    rw [synBytes, hme]; rfl
  have hmore : (s.synAt f dth row .run k j).me.seq.sidx.toNat < (s.synAt f dth row .run k j).me.samples := by
    rw [hme]
    exact (toNat_ofNat_of_le_samples hj.le).trans_lt hj
  rw [execTimes_syn_sample hrow dth (synAt_betweenSamples dth hs k j) hmore
    (by rw [hme]; exact admits_sample (s := s) hadmits hj), hbytes, State.begunPort, hme,
    Dither.advance_succ, ← Port.pastSample_synAt]
  exact congrArg _ during_during

/-- A SYN that is in `RUN` after its last sample is done: under `LOCK_GRAIN = CALL`, and where it has no sample to make
(R105; log 15). -/
theorem exec_synAt_done (k : Lock) : exec (.syn f dth) (s.synAt f dth row .run k s.me.samples) =
    .next (s.afterSyn f dth row s.me.samples) := by
  have hme := me_synAt (f := f) (row := row) dth hs .run k s.me.samples
  have hbetween := synAt_betweenSamples (f := f) (row := row) dth hs k s.me.samples
  rw [exec_syn_running dth hrow hbetween.1,
    synRun_done hbetween (by rw [hme]; exact toNat_ofNat_of_le_samples le_rfl),
    completeLocked_synTokens (State.active_lt_of_live hbetween.1.1), hme, State.afterSyn, hs.free]
  exact congrArg _ during_during

/-! ### The lock held for the whole command -/

/-- A SYN under `LOCK_GRAIN = CALL`: accepted, acquired, `2 * NFR` samples of `W` parts, done (R105, R127). -/
theorem execTimes_syn_call (hgrain : s.cfg.lockGrain = .call) (hfits : s.me.rangeFits row.byteWidth = true)
    (hadmits : s.Admits s.me.buf (s.me.samples * row.byteWidth)) :
    execTimes (.syn f dth) (s.me.samples * row.byteWidth + 3) s = .next (s.afterSyn f dth row s.me.samples) := by
  have hp := State.active_lt_of_live hs.idle.1
  have haccept : exec (.syn f dth) s =
      .next (s.during s.dither s.lock s.mem (s.me.accepting (.syn f dth) .waitLock)) := by
    rw [exec_syn_idle dth hrow hs.idle, synAccept_call hfits hgrain, accept_of_takesLock (Instr.takesLock_syn f dth)]
    rfl
  have hme := me_during s.dither s.lock s.mem (s.me.accepting (.syn f dth) .waitLock) hp
  have hwaiting : (s.during s.dither s.lock s.mem (s.me.accepting (.syn f dth) .waitLock)).Waiting :=
    ⟨(during_live _ _ _ _).trans hs.idle.1, by rw [hme]; rfl⟩
  have hacquire : exec (.syn f dth) (s.during s.dither s.lock s.mem (s.me.accepting (.syn f dth) .waitLock)) =
      .next (s.synAt f dth row .run (.held s.active) 0) := by
    rw [exec_syn_acquires_call hrow dth hwaiting hgrain hs.seeded hs.free, hme, State.synAt, Port.synAt_zero]
    exact congrArg _ during_during
  have hsamples := execTimes_mul (state := s.synAt f dth row .run (.held s.active)) fun j hj => by
    have hsample := execTimes_synAt_sample hrow dth hs hadmits (.held s.active) hj
    rwa [withSent_call (q := s.me.synAt _ _ _ _ _) hgrain hs.sent] at hsample
  rw [execTimes_of_next haccept, execTimes_of_next hacquire, execTimes_add hsamples,
    execTimes_of_next (exec_synAt_done hrow dth hs _), execTimes]

/-! ### A lock for each sample -/

theorem exec_synAt_acquires (hgrain : s.cfg.lockGrain = .sample) {j : Nat} (hj : j = 0 ∨ j < s.me.samples) :
    exec (.syn f dth) (s.synAt f dth row .waitLock .free j) = .next (s.synAt f dth row .run (.held s.active) j) := by
  have hme := me_synAt (f := f) (row := row) dth hs .waitLock .free j
  have hleft : (BitVec.ofNat 33 j : BitVec 33) = 0 ∨ (BitVec.ofNat 33 j).toNat ≠ s.me.samples := by
    rcases hj with rfl | hlt
    · exact .inl rfl
    · exact .inr (by rw [toNat_ofNat_of_le_samples hlt.le]; exact hlt.ne)
  rw [exec_syn_acquires_sample hrow dth (synAt_waiting dth hs .free j) hgrain hs.seeded rfl
    (by rw [hme]; exact hleft), hme]
  exact congrArg _ during_during

/-- The release after a sample leaves the SYN waiting for the lock of the next (R137). -/
theorem exec_synAt_releases {j : Nat} : exec (.syn f dth)
      (s.during (Dither.advance j s.dither) (.held s.active)
        (memoryAfter s.cfg row dth s.dither s.me.tok s.me.buf s.mem j)
        ((s.me.synAt (.syn f dth) row.byteWidth s.dither .run j).withSent true)) =
    .next (s.synAt f dth row .waitLock .free j) := by
  have hme := me_during (Dither.advance j s.dither) (.held s.active)
    (memoryAfter s.cfg row dth s.dither s.me.tok s.me.buf s.mem j)
    ((s.me.synAt (.syn f dth) row.byteWidth s.dither .run j).withSent true) (State.active_lt_of_live hs.idle.1)
  have hport : (((s.me.synAt (.syn f dth) row.byteWidth s.dither .run j).withSent true).withSent false).withPhase
      .waitLock = s.me.synAt (.syn f dth) row.byteWidth s.dither .waitLock j := by
    rw [← hs.sent]; rfl
  rw [exec_syn_releases hrow dth (running_during _ _ _ _ hs.idle.1 rfl) (by rw [hme]; exact hs.out) (by rw [hme]; rfl),
    releaseSample_eq_during, hme, hport]
  exact congrArg _ during_during

/-- One sample with its own lock: acquired, written in `W` parts, released (R137). -/
theorem execTimes_synAt_locked (hgrain : s.cfg.lockGrain = .sample)
    (hadmits : s.Admits s.me.buf (s.me.samples * row.byteWidth)) {j : Nat} (hj : j < s.me.samples) :
    execTimes (.syn f dth) (row.byteWidth + 2) (s.synAt f dth row .waitLock .free j) =
      .next (s.synAt f dth row .waitLock .free (j + 1)) := by
  have hsample := execTimes_synAt_sample hrow dth hs hadmits (.held s.active) hj
  have hmark : (s.cfg.lockGrain == .sample) = true := by rw [hgrain]; rfl
  rw [hmark] at hsample
  rw [execTimes_of_next (exec_synAt_acquires hrow dth hs hgrain (.inr hj)), execTimes_add hsample,
    execTimes_of_next (exec_synAt_releases hrow dth hs), execTimes]

theorem exec_syn_accepts_synAt (hgrain : s.cfg.lockGrain = .sample) (hfits : s.me.rangeFits row.byteWidth = true) :
    exec (.syn f dth) s = .next (s.synAt f dth row .waitLock .free 0) := by
  rw [exec_syn_accepts_sample hrow dth hs.idle hfits hgrain, State.synAt, Port.synAt_zero, hs.free]
  rfl

/-- A SYN of no frames under `LOCK_GRAIN = SAMPLE`: accepted, acquired, done (R137; log 15). -/
theorem execTimes_syn_sample_empty (hgrain : s.cfg.lockGrain = .sample) (hfits : s.me.rangeFits row.byteWidth = true)
    (hempty : s.me.samples = 0) :
    execTimes (.syn f dth) 3 s = .next (s.afterSyn f dth row s.me.samples) := by
  have hdone := exec_synAt_done (f := f) hrow dth hs (.held s.active)
  rw [hempty] at hdone ⊢
  rw [execTimes_of_next (exec_syn_accepts_synAt hrow dth hs hgrain hfits),
    execTimes_of_next (exec_synAt_acquires hrow dth hs hgrain (.inl rfl)), execTimes_of_next hdone, execTimes]

/-- A SYN under `LOCK_GRAIN = SAMPLE`: accepted, `2 * NFR` samples with a lock each, done (R137). -/
theorem execTimes_syn_sample_grain (hgrain : s.cfg.lockGrain = .sample)
    (hfits : s.me.rangeFits row.byteWidth = true) (hadmits : s.Admits s.me.buf (s.me.samples * row.byteWidth))
    (hne : s.me.samples ≠ 0) : execTimes (.syn f dth) (s.me.samples * (row.byteWidth + 2) + 2) s =
      .next (s.afterSyn f dth row s.me.samples) := by
  have hme := me_synAt (f := f) (row := row) dth hs .waitLock .free s.me.samples
  have hsidx : (BitVec.ofNat 33 s.me.samples).toNat = s.me.samples := toNat_ofNat_of_le_samples le_rfl
  have hpast : BitVec.ofNat 33 s.me.samples ≠ 0 := fun h => hne (by rw [← hsidx, h]; rfl)
  have hdone : exec (.syn f dth) (s.synAt f dth row .waitLock .free s.me.samples) =
      .next (s.afterSyn f dth row s.me.samples) := by
    rw [exec_syn_returns_token hrow dth (synAt_waiting dth hs .free _) hgrain (by rw [hme]; exact hpast)
      (by rw [hme]; exact hsidx), hme, State.afterSyn, hs.free]
    exact congrArg _ during_during
  have hsamples := execTimes_mul (state := s.synAt f dth row .waitLock .free) fun j hj =>
    execTimes_synAt_locked hrow dth hs hgrain hadmits (j := j) hj
  rw [execTimes_of_next (exec_syn_accepts_synAt hrow dth hs hgrain hfits), execTimes_add hsamples,
    execTimes_of_next hdone, execTimes]

end

end

/-- Settles O18: the steps of either grain lead from sample to sample and end in the same state. -/
theorem synRunsAsTheWholeSynthesis : Obligations.SynRunsAsTheWholeSynthesis := by
  intro f dth row s hrow hidle hout hsent hfree hseed hroom hadmits
  have hs : s.SynReady := ⟨hidle, hout, hsent, hfree, hseed⟩
  have hfits : s.me.rangeFits row.byteWidth = true := decide_eq_true hroom
  cases hgrain : s.cfg.lockGrain with
  | call => exact execTimes_syn_call hrow dth hs hgrain hfits hadmits
  | sample =>
    have hiff : s.me.nfr = 0 ↔ s.me.samples = 0 := by
      rw [Port.samples, ← BitVec.toNat_inj]
      simp
    dsimp only
    split
    case isTrue hempty => exact execTimes_syn_sample_empty hrow dth hs hgrain hfits (hiff.mp hempty)
    case isFalse hne =>
      exact execTimes_syn_sample_grain hrow dth hs hgrain hfits hadmits fun h => hne (hiff.mpr h)

end Sys2Proof.Machine

namespace Sys2Proof.Machine

/-! ## Two SYNs on one stream -/

/-- The state with the operands of a SYN of `n` frames at `buf` in the acting port (R14, R105). -/
def State.withFrames (s : State) (buf : Word) (n : Nat) : State :=
  s.setMe { s.me with buf := buf, nfr := BitVec.ofNat 32 n }

section
variable {s : State} (hs : s.SynReady)
include hs

/-- A SYN leaves a block that is ready for the next one. -/
theorem synReady_afterSyn (f : Format) (dth : Bool) (row : Row) (n : Nat) : (s.afterSyn f dth row n).SynReady := by
  have hme : (s.afterSyn f dth row n).me = _ := me_during _ _ _ _ (State.active_lt_of_live hs.idle.1)
  refine ⟨⟨(during_live _ _ _ _).trans hs.idle.1, ?_⟩, ?_, ?_, hs.free, hs.seeded⟩ <;> rw [hme]
  · rfl
  · exact hs.out
  · exact hs.sent

theorem tok_afterSyn (f : Format) (dth : Bool) (row : Row) (n : Nat) :
    (s.afterSyn f dth row n).me.tok = s.dither.prevAt s.me.tok n :=
  congrArg Port.tok (me_during _ _ _ _ (State.active_lt_of_live hs.idle.1))

theorem me_withFrames (buf : Word) (n : Nat) :
    (s.withFrames buf n).me = { s.me with buf := buf, nfr := BitVec.ofNat 32 n } :=
  State.me_setMe s _ (State.active_lt_of_live hs.idle.1)

theorem synReady_withFrames (buf : Word) (n : Nat) : (s.withFrames buf n).SynReady := by
  have hme := me_withFrames hs buf n
  refine ⟨⟨(State.setMe_live s _).trans hs.idle.1, ?_⟩, ?_, ?_, hs.free, hs.seeded⟩ <;> rw [hme]
  · exact hs.idle.2
  · exact hs.out
  · exact hs.sent

/-- A SYN of `n` frames at `buf` under `LOCK_GRAIN = CALL` runs to its end (R105). -/
theorem execTimes_syn_withFrames {f : Format} {row : Row} (hrow : describe f = some row) (dth : Bool)
    (hgrain : s.cfg.lockGrain = .call) {buf : Word} {n : Nat} (hn : n < 2 ^ 32)
    (hroom : buf.toNat + 2 * n * row.byteWidth ≤ 2 ^ 64) (hadmits : s.Admits buf (2 * n * row.byteWidth)) :
    execTimes (.syn f dth) (2 * n * row.byteWidth + 3) (s.withFrames buf n) =
      .next ((s.withFrames buf n).afterSyn f dth row (2 * n)) := by
  have hme := me_withFrames hs buf n
  have hsamples : (s.withFrames buf n).me.samples = 2 * n := by
    rw [hme, Port.samples, BitVec.toNat_ofNat, Nat.mod_eq_of_lt hn]
  have hfits : (s.withFrames buf n).me.rangeFits row.byteWidth = true := by
    rw [Port.rangeFits, hsamples, hme]
    exact decide_eq_true hroom
  have hrun := execTimes_syn_call hrow dth (synReady_withFrames hs buf n) hgrain hfits
    (by rw [hsamples, hme]; exact hadmits)
  rwa [hsamples] at hrun

theorem mem_withFrames_afterSyn (f : Format) (dth : Bool) (row : Row) (buf : Word) (n j : Nat) :
    ((s.withFrames buf n).afterSyn f dth row j).mem =
      memoryAfter s.cfg row dth s.dither s.me.tok buf s.mem j := by
  rw [State.afterSyn, me_withFrames hs]
  rfl

theorem tok_withFrames_afterSyn (f : Format) (dth : Bool) (row : Row) (buf : Word) (n j : Nat) :
    ((s.withFrames buf n).afterSyn f dth row j).me.tok = s.dither.prevAt s.me.tok j := by
  rw [tok_afterSyn (synReady_withFrames hs buf n), me_withFrames hs]
  rfl

end

/-- The second part of a range that the platform admits (R49). -/
theorem admits_add {s : State} {addr : Word} {n k : Nat} (h : s.Admits addr (n + k)) :
    s.Admits (addr + BitVec.ofNat 64 n) k := fun j hj => by
  rw [BitVec.add_assoc, ← BitVec.ofNat_add]
  exact h _ (by omega)

/-- Settles O20: the second SYN goes on from the DitherState, the token and the memory that the first one leaves. -/
theorem synthesisIsContinuous : Obligations.SynthesisIsContinuous := by
  intro f dth row k m s hrow hidle hout hsent hfree hseed hgrain hkm hroom hadmits
  have hs : s.SynReady := ⟨hidle, hout, hsent, hfree, hseed⟩
  have hwidth : 2 * (k + m) * row.byteWidth = 2 * k * row.byteWidth + 2 * m * row.byteWidth := by ring
  have hboth := execTimes_syn_withFrames hs hrow dth hgrain hkm hroom hadmits
  rw [hwidth] at hroom hadmits
  have hfirst := execTimes_syn_withFrames hs hrow dth hgrain (buf := s.me.buf) (n := k) (by omega) (by omega)
    fun j hj => hadmits j (by omega)
  have ht := synReady_afterSyn (synReady_withFrames hs s.me.buf k) f dth row (2 * k)
  have htok := tok_withFrames_afterSyn hs f dth row s.me.buf k (2 * k)
  have hmem := mem_withFrames_afterSyn hs f dth row s.me.buf k (2 * k)
  have hsecond := execTimes_syn_withFrames ht hrow dth hgrain (n := m)
    (buf := s.me.buf + BitVec.ofNat 64 (2 * k * row.byteWidth)) (by omega)
    (by rw [BitVec.toNat_add, BitVec.toNat_ofNat]; omega) (admits_add (s := s) hadmits)
  refine ⟨_, _, _, hfirst, hsecond, hboth, ?_, ?_, ?_⟩
  · rw [mem_withFrames_afterSyn ht, htok, hmem, mem_withFrames_afterSyn hs, Nat.mul_add]
    exact memoryAfter_add s.cfg row dth s.dither s.me.tok s.me.buf s.mem (2 * k) (2 * m)
  · rw [Nat.mul_add]
    exact Dither.advance_add s.dither (2 * k) (2 * m)
  · rw [tok_withFrames_afterSyn ht, htok, tok_withFrames_afterSyn hs, Nat.mul_add]
    exact Dither.prevAt_advance s.dither s.me.tok (2 * k) (2 * m)

end Sys2Proof.Machine

namespace Sys2Proof.Machine

/-! ## The classes of `VOL` -/

namespace F64

/-- A pattern is its sign and its magnitude. -/
theorem eq_iff_signBit_mag {x y : Word} : x = y ↔ signBit x = signBit y ∧ mag x = mag y := by
  refine ⟨fun h => by rw [h]; exact ⟨rfl, rfl⟩, fun ⟨hs, hm⟩ => BitVec.eq_of_toNat_eq ?_⟩
  have hx := x.isLt
  have hy := y.isLt
  rw [signBit_eq, signBit_eq, decide_eq_decide] at hs
  rw [mag_eq, mag_eq] at hm
  omega

/-- The magnitude as R141's statement masks it. -/
theorem toNat_and_mask (w : Word) : (w &&& 0x7FFFFFFFFFFFFFFF).toNat = mag w := by
  rw [mag_eq, BitVec.toNat_and]
  exact Nat.and_two_pow_sub_one_eq_mod w.toNat 63

end F64

open F64

theorem fpMinus30_eq : fpMinus30 = 0xC03E000000000000 := by decide +kernel

/-- In range are `+0.0` and the negative patterns from `-0.0` to `-30.0` (R141). -/
theorem inRange_iff (vol : Word) :
    inRange vol = true ↔ vol = 0 ∨ (signBit vol = true ∧ mag vol ≤ 0x403E000000000000) := by
  have h0 : isNaN fp0 = false ∧ key fp0 = 0 := by decide
  have h30 : isNaN fpMinus30 = false ∧ key fpMinus30 = -0x403E000000000000 := by rw [fpMinus30_eq]; decide
  have hz : vol = 0 ↔ signBit vol = false ∧ mag vol = 0 := eq_iff_signBit_mag
  rw [inRange, Bool.and_eq_true, hz]
  cases hn : isNaN vol with
  | true =>
    have hbig := isNaN_iff.mp hn
    rw [infMag] at hbig
    simp only [comparisons_nan (.inl hn), Bool.false_eq_true, false_and, false_iff]
    omega
  | false =>
    rw [le_iff hn h0.1, le_iff h30.1 hn, h0.2, h30.2, key_eq]
    cases signBit vol <;> simp

/-- Muted is the one pattern of `-144.0` (R141). -/
theorem muted_iff (vol : Word) : muted vol = true ↔ vol = 0xC062000000000000 := by
  have hs : isNaN muteSentinel = false ∧ key muteSentinel = -0x4062000000000000 := by decide
  have hp : vol = 0xC062000000000000 ↔ signBit vol = true ∧ mag vol = 0x4062000000000000 := eq_iff_signBit_mag
  rw [muted, hp]
  cases hn : isNaN vol with
  | true =>
    have hbig := isNaN_iff.mp hn
    rw [infMag] at hbig
    simp only [comparisons_nan (.inl hn), Bool.false_eq_true, false_iff]
    omega
  | false =>
    rw [eq_iff hn hs.1, hs.2, key_eq]
    cases signBit vol
    · simp
    · simp
      omega

/-- The mute sentinel lies below the range (R141). -/
theorem muted_of_inRange {vol : Word} (h : inRange vol = true) : muted vol = false := by
  refine Bool.eq_false_iff.mpr fun hm => ?_
  rw [(muted_iff vol).mp hm] at h
  exact absurd h (by rw [inRange, fpMinus30_eq]; decide)

/-- A NaN is out of range (R141). -/
theorem outOfRange_of_isNaN {vol : Word} (h : isNaN vol = true) : outOfRange vol = true := by
  simp [outOfRange, inRange, muted, comparisons_nan (.inl h)]

/-- Settles O37: the order of the patterns gives each class, and the sentinel lies outside the range. -/
theorem volumeClassesPartition : Obligations.VolumeClassesPartition := by
  intro vol
  rw [toNat_and_mask]
  refine ⟨?_, inRange_iff vol, muted_iff vol, ?_, ?_, fun h => outOfRange_of_isNaN (isNaN_iff.mpr h)⟩
  · cases hr : inRange vol with
    | true => simp [outOfRange, hr, muted_of_inRange hr]
    | false => cases hm : muted vol <;> simp [outOfRange, hr, hm]
  · rw [outOfRange, inRange, fpMinus30_eq]; decide
  · rw [outOfRange, inRange, fpMinus30_eq]; decide

end Sys2Proof.Machine

namespace Sys2Proof.Machine

/-! ## The run step of the volume commands -/

open F64

/-- The run step of a VC command whose curve gives a result without a diagnostic (R140). -/
theorem exec_vc_value {k : Curve} {s : State} {res : Word} (hs : s.Running)
    (hcurve : curve k s.me.vol s.me.maxInt s.me.minInt = .value res false) :
    exec (.vc k) s = .next { s with ports := s.ports.set s.active { s.me with
      res := res
      seq := { s.me.seq with phase := .idle, op := none } } } := by
  rw [exec_vc, volumeCommand, plainCommand, byPhase_run hs.1 hs.2, hcurve, volumeRun,
    complete_writeRes (State.active_lt_of_live hs.1)]

/-- Outside the range each curve falls back to `min_db` (R142). -/
theorem curve_of_not_inRange (k : Curve) {vol : Word} (h : inRange vol = false) (mx mn : Int) :
    curve k vol mx mn = fallback vol mn := by
  cases k <;> simp [curve, flat, tapered, segmented, h]

theorem inRange_of_outOfRange {vol : Word} (h : outOfRange vol = true) : inRange vol = false := by
  rw [outOfRange, Bool.and_eq_true] at h
  simpa using h.1

/-- Settles O41: the curves share the fallback, which asks for the diagnostic. -/
theorem outOfRangeVolumeIsDiagnosed : Obligations.OutOfRangeVolumeIsDiagnosed := by
  intro k s hs hout
  have hcurve : curve k s.me.vol s.me.maxInt s.me.minInt = .value (i2f s.me.minInt) true := by
    rw [curve_of_not_inRange k (inRange_of_outOfRange hout), fallback, hout]
  have hrun : exec (.vc k) s = .next (diag k s.me.vol (complete (writeRes (i2f s.me.minInt) s))) := by
    rw [exec_vc, volumeCommand, plainCommand, byPhase_run hs.1 hs.2, hcurve]
    rfl
  rw [hrun, complete_writeRes (State.active_lt_of_live hs.1)]
  cases k <;> rfl

/-- Settles O38: in range the curve gives `flatValue`, and its constant is the pattern of 30. -/
theorem flatRunStepWritesRes : Obligations.FlatRunStepWritesRes := by
  intro s hs hr
  have h30 : fp30 = 0x403E000000000000 := by decide +kernel
  have hcurve : curve .flat s.me.vol s.me.maxInt s.me.minInt =
      .value (flatValue s.me.vol s.me.maxInt s.me.minInt) false := if_pos hr
  rw [← h30]
  exact exec_vc_value hs hcurve

/-- Settles O39: in range the curve gives `taperedValue`, and its constants are the patterns of 1, -30 and 1000. -/
theorem taperRunStepWritesRes : Obligations.TaperRunStepWritesRes := by
  intro s hs hr
  have h1 : fp1 = 0x3FF0000000000000 := by decide +kernel
  have h1000 : fp1000 = 0x408F400000000000 := by decide +kernel
  have hcurve : curve .taper s.me.vol s.me.maxInt s.me.minInt =
      .value (taperedValue s.me.vol s.me.maxInt s.me.minInt) false := if_pos hr
  rw [← h1, ← h1000, ← fpMinus30_eq]
  exact exec_vc_value hs hcurve

/-! ## The segments of the Segmented curve -/

/-- One turn of the loop of R147, for a segment from `x` whose denominator is `den`. -/
def segmentTurn (vol x y den acc : Word) : Word :=
  let t := fdiv (fmul y (fsub vol x)) den
  if le vol x && lt t acc then t else acc

/-- The loop takes a turn for each segment whose denominator is not zero. -/
theorem segmentLoop_cons {x den : Word} (hden : fsub fpMinus30 x = den) (hne : eq den fp0 = false) (vol y : Word)
    (rest : List (Word × Word)) (i : Nat) (acc : Word) :
    segmentLoop vol ((x, y) :: rest) i acc = segmentLoop vol rest (i + 1) (segmentTurn vol x y den acc) := by
  rw [segmentLoop, segmentTurn, hden]
  cases le vol x <;> simp [hne]

/-- The accumulator of R147 after the three segments, for a range `rf`. -/
def segmentMinimum (vol rf : Word) : Word :=
  let fs := firstSlope rf
  segmentTurn vol 0xC031000000000000 (fsub 0 rf) 0xC02A000000000000
    (segmentTurn vol 0xC014000000000000 (fsub fs (fdiv (fadd rf fs) 0x4000000000000000)) 0xC039000000000000
      (segmentTurn vol 0 fs 0xC03E000000000000 0))

theorem fp2_eq : fp2 = 0x4000000000000000 := by decide +kernel

/-- The three segments unrolled: the intercepts are 0, -5 and -17, the denominators -30, -25 and -13 (R149). -/
theorem segmentLoop_segments (vol rf : Word) : segmentLoop vol (segments rf) 0 fp0 = .ok (segmentMinimum vol rf) := by
  have h5 : i2f (-5) = 0xC014000000000000 := by decide +kernel
  have h17 : i2f (-17) = 0xC031000000000000 := by decide +kernel
  rw [segments, segmentLoop_cons (den := 0xC03E000000000000) (by decide +kernel) (by decide),
    segmentLoop_cons (den := 0xC039000000000000) (by decide +kernel) (by decide),
    segmentLoop_cons (den := 0xC02A000000000000) (by decide +kernel) (by decide), segmentLoop, h5, h17, fp2_eq]
  rfl

/-- The Segmented curve in range (R147). -/
theorem segmented_of_inRange {vol : Word} (h : inRange vol = true) (mx mn : Int) :
    segmented vol mx mn = .value (fadd (segmentMinimum vol (i2f (mx - mn))) (i2f mx)) false := by
  rw [segmented, if_pos h, segmentLoop_segments]

/-- Every in-range volume is on the first segment. -/
theorem le_zero_of_inRange {vol : Word} (h : inRange vol = true) : le vol 0 = true :=
  (Bool.and_eq_true _ _ ▸ h).1

/-- Settles O40: the loop is the three turns, the first of which every in-range volume takes. -/
theorem segRunStepWritesRes : Obligations.SegRunStepWritesRes := by
  intro s hs hr
  have hstep := exec_vc_value (k := .seg) hs (segmented_of_inRange hr s.me.maxInt s.me.minInt)
  rw [segmentMinimum, firstSlope, fp2_eq] at hstep
  simp only [segmentTurn, le_zero_of_inRange hr, Bool.true_and] at hstep
  exact hstep

/-- Settles O43: the guard fires on an intercept of -30 and writes the fault registers; the curve's own intercepts never
reach it. -/
theorem zeroDenominatorGuardIsKeptAndDead : Obligations.ZeroDenominatorGuardIsKeptAndDead := by
  have hden : eq (fsub fpMinus30 0xC03E000000000000) fp0 = true := by decide +kernel
  refine ⟨fun vol y acc rest i hle => ?_, fun s i hlive => ?_, segmented_ne_zeroDenominator⟩
  · rw [segmentLoop, if_pos hle, if_pos hden]
  · rw [volumeRun, raiseFatal, if_neg (by simp [hlive])]
    rfl

end Sys2Proof.Machine

namespace Sys2Proof.Machine.F64

/-! ## Values that need no rounding -/

/-- Twice a value is a value. -/
theorem exists_ulps_double (M : ℕ) : ∃ M', ulps M' = 2 * ulps M := by
  obtain ⟨k, q, hq, hk, rfl⟩ := exists_place M
  rw [ulps_place hq.le hk]
  rcases Nat.lt_or_ge q (2 ^ 52) with hlt | hge
  · obtain rfl : k = 0 := by omega
    exact ⟨0 * 2 ^ 52 + 2 * q, by rw [ulps_place (by omega) (.inl rfl)]; ring⟩
  · exact ⟨(k + 1) * 2 ^ 52 + q, by rw [ulps_place hq.le (.inr hge)]; ring⟩

/-- A significand of at most 53 digits at any exponent is a value. -/
theorem exists_ulps_mul_two_pow {m : ℕ} (hm : m ≤ 2 ^ 53) (k : ℕ) : ∃ M, ulps M = m * 2 ^ k := by
  induction k with
  | zero => exact ⟨0 * 2 ^ 52 + m, by rw [ulps_place hm (.inl rfl)]⟩
  | succ k ih =>
    obtain ⟨M, hM⟩ := ih
    obtain ⟨M', hM'⟩ := exists_ulps_double M
    exact ⟨M', by rw [hM', hM]; ring⟩

/-- Whole numbers of 53 digits are far below the overflow threshold. -/
theorem two_pow_53_lt_threshold : (2 : ℚ) ^ 53 < 2 ^ 1024 - 2 ^ 970 := by
  have hone : (1 : ℚ) ≤ 2 ^ 970 := one_le_pow₀ one_le_two
  rw [show (1024 : ℕ) = 54 + 970 from rfl, pow_add]
  generalize (2 : ℚ) ^ 970 = g at *
  linarith

/-- A value at most `2^53` is that of a finite magnitude. -/
theorem lt_infMag_of_ulps_le {M : ℕ} (h : ulps M * ulp ≤ 2 ^ 53) : M < infMag := by
  obtain ⟨g, hg, hinf, -, hthreshold⟩ := exists_halfTopUlp
  have hlt := h.trans_lt two_pow_53_lt_threshold
  rw [hthreshold, mul_lt_mul_iff_left₀ ulp_pos] at hlt
  rw [← ulps_strictMono.lt_iff_lt, hinf]
  have hg' : (0 : ℚ) < g := by exact_mod_cast hg
  have : (ulps M : ℚ) < 2 ^ 54 * g := by linarith
  exact_mod_cast this

/-- A rational of at most 53 binary digits, not too small and not too large, is its own rounding. -/
theorem RoundsTo.rat_eq_of_digits {w : Word} {q : ℚ} (h : RoundsTo w q) {n e : ℤ} (hq : q = n * 2 ^ e)
    (hn : n.natAbs ≤ 2 ^ 53) (he : -1074 ≤ e) (he0 : e ≤ 0) : rat w = some q := by
  obtain ⟨M, hM⟩ := exists_ulps_mul_two_pow hn (e + 1074).toNat
  have hvalue : (ulps M : ℚ) * ulp = n.natAbs * 2 ^ e := by
    rw [hM, Nat.cast_mul, mul_assoc, Nat.cast_pow, Nat.cast_ofNat, mul_comm _ ulp, ulp_mul_two_pow,
      Int.toNat_of_nonneg (by omega), add_sub_cancel_right]
  have hsmall : (n.natAbs : ℚ) * 2 ^ e ≤ 2 ^ 53 := by
    have hpow : (2 : ℚ) ^ e ≤ 1 := zpow_le_one_of_nonpos₀ one_le_two he0
    have hdigits : (n.natAbs : ℚ) ≤ 2 ^ 53 := by exact_mod_cast hn
    nlinarith [show (0 : ℚ) < 2 ^ e by positivity]
  have hpattern : rat (pattern (decide (n < 0)) M) = some q := by
    rw [rat_pattern (lt_infMag_of_ulps_le (hvalue ▸ hsmall)), mul_assoc, hvalue, ← mul_assoc, sgn_mul_natAbs, hq]
  refine h.rat_eq hpattern (lt_of_le_of_lt ?_ two_pow_53_lt_threshold)
  rw [hq, abs_mul, abs_of_pos (by positivity : (0 : ℚ) < 2 ^ e), ← Int.cast_abs, ← Nat.cast_natAbs]
  exact hsmall

/-- `round` of a significand of at most 53 digits is exact. -/
theorem rat_round (neg : Bool) {m : ℕ} {e : ℤ} (hm : m ≤ 2 ^ 53) (he : -1074 ≤ e) (he0 : e ≤ 0) :
    rat (round neg m e) = some (sgn neg * (m * 2 ^ e)) := by
  refine (round_roundsTo_self neg m e).rat_eq_of_digits (n := (if neg then -1 else 1) * m) (e := e) ?_ ?_ he he0
  · cases neg <;> simp [sgn]
  · cases neg <;> simpa using hm

/-- The sign of a nonzero value is its sign bit. -/
theorem signBit_of_rat {x : Word} {q : ℚ} (hx : rat x = some q) (hq : q ≠ 0) : signBit x = decide (q < 0) := by
  obtain ⟨-, hr⟩ := rat_eq_some.mp hx
  rw [ulpsAt_key, mul_assoc] at hr
  have hpos : 0 ≤ (ulps (mag x) : ℚ) * ulp := mul_nonneg (by positivity) ulp_pos.le
  cases hs : signBit x with
  | false =>
    have : 0 ≤ q := by rw [← hr, hs]; simpa [sgn] using hpos
    simpa using this
  | true =>
    have : q ≤ 0 := by rw [← hr, hs]; simpa [sgn] using hpos
    simpa using lt_of_le_of_ne this hq

/-- A nonzero value has one pattern only. -/
theorem eq_of_rat_eq {x y : Word} {q : ℚ} (hx : rat x = some q) (hy : rat y = some q) (hq : q ≠ 0) : x = y := by
  have hkey : key x = key y := ulpsAt_strictMono.injective (by
    exact_mod_cast mul_right_cancel₀ ulp_pos.ne' ((rat_eq_some.mp hx).2.trans (rat_eq_some.mp hy).2.symm))
  rw [eq_iff_signBit_mag, signBit_of_rat hx hq, signBit_of_rat hy hq, ← natAbs_key, ← natAbs_key, hkey]
  exact ⟨rfl, rfl⟩

theorem fadd_comm (x y : Word) : fadd x y = fadd y x := by
  unfold fadd
  rcases unpack x with _ | s | ⟨s, m, e⟩ <;> rcases unpack y with _ | t | ⟨t, n, f⟩
  case inf.inf => cases s <;> cases t <;> rfl
  case fin.fin => simp only [min_comm e f, add_comm (scaled s m e _), Bool.and_comm s t]
  all_goals rfl

/-! ## Quarters

For `i32` operands and the volumes 0, -15 and -30, every step of the curves is exact: each of its values is a whole number
of quarters, of at most 53 digits. -/

/-- A pattern has the value `n / 4`. -/
def IsQuarters (w : Word) (n : ℤ) : Prop := rat w = some ((n : ℚ) / 4)

section
variable {w x y : Word} {a b n : ℤ}

theorem isQuarters_of_roundsTo (h : RoundsTo w (n / 4)) (hn : n.natAbs ≤ 2 ^ 53) : IsQuarters w n :=
  h.rat_eq_of_digits (e := -2) (by norm_num [div_eq_mul_inv]) hn (by norm_num) (by norm_num)

theorem isQuarters_i2f (hn : n.natAbs ≤ 2 ^ 53) : IsQuarters (i2f n) (4 * n) := by
  rw [IsQuarters, rat_i2f hn]
  push_cast
  rw [mul_div_cancel_left₀ _ four_ne_zero]

theorem isQuarters_of_eq (h : w = i2f n) (hn : n.natAbs ≤ 2 ^ 53) : IsQuarters w (4 * n) := h ▸ isQuarters_i2f hn

theorem isQuarters_zero (neg : Bool) : IsQuarters (zero neg) 0 := by
  rw [IsQuarters, zero_eq_pattern, rat_pattern (by norm_num [infMag])]
  simp

theorem IsQuarters.fadd (hx : IsQuarters x a) (hy : IsQuarters y b) (hn : (a + b).natAbs ≤ 2 ^ 53) :
    IsQuarters (fadd x y) (a + b) := by
  have h := (fadd_finite hx hy).1
  rw [← add_div] at h
  exact isQuarters_of_roundsTo (by exact_mod_cast h) hn

theorem IsQuarters.fneg (hy : IsQuarters y b) : IsQuarters (fneg y) (-b) := by
  rw [IsQuarters, rat_fneg hy, Int.cast_neg, neg_div]

theorem IsQuarters.fsub (hx : IsQuarters x a) (hy : IsQuarters y b) (hn : (a - b).natAbs ≤ 2 ^ 53) :
    IsQuarters (fsub x y) (a - b) := hx.fadd hy.fneg hn

theorem IsQuarters.fmul (hx : IsQuarters x a) (hy : IsQuarters y b) (h : a * b = 4 * n) (hn : n.natAbs ≤ 2 ^ 53) :
    IsQuarters (fmul x y) n := by
  refine isQuarters_of_roundsTo ?_ hn
  have hq : (a : ℚ) / 4 * (b / 4) = n / 4 := by
    have : (a : ℚ) * b = 4 * n := by exact_mod_cast h
    linarith
  exact hq ▸ (fmul_finite hx hy).1

theorem IsQuarters.fdiv (hx : IsQuarters x a) (hy : IsQuarters y b) (hb : b ≠ 0) (h : 4 * a = n * b)
    (hn : n.natAbs ≤ 2 ^ 53) : IsQuarters (fdiv x y) n := by
  refine isQuarters_of_roundsTo ?_ hn
  have hb' : (b : ℚ) ≠ 0 := by exact_mod_cast hb
  have hq : (a : ℚ) / 4 / (b / 4) = n / 4 := by
    have : (4 : ℚ) * a = n * b := by exact_mod_cast h
    field_simp
    linarith
  exact hq ▸ (fdiv_finite hx hy (by simpa using hb')).1

theorem IsQuarters.lt_eq (hx : IsQuarters x a) (hy : IsQuarters y b) : lt x y = decide (a < b) := by
  rw [Bool.eq_iff_iff, (comparisons_finite hx hy).1, decide_eq_true_iff, div_lt_div_iff_of_pos_right four_pos,
    Int.cast_lt]

theorem IsQuarters.le_eq (hx : IsQuarters x a) (hy : IsQuarters y b) : le x y = decide (a ≤ b) := by
  rw [Bool.eq_iff_iff, (comparisons_finite hx hy).2.1, decide_eq_true_iff, div_le_div_iff_of_pos_right four_pos,
    Int.cast_le]

/-- A sum with an integer that is an integer has the pattern of `i2f`: where it is zero, not both terms are `-0`. -/
theorem fadd_i2f {m : ℤ} (hx : IsQuarters x a) (h : a + 4 * n = 4 * m) (hn : n.natAbs ≤ 2 ^ 51)
    (hm : m.natAbs ≤ 2 ^ 51) : F64.fadd x (i2f n) = i2f m := by
  have hy := isQuarters_i2f (n := n) (by omega)
  by_cases hzero : m = 0
  · have hsum : (a : ℚ) / 4 + (4 * n : ℤ) / 4 = 0 := by
      rw [← add_div, ← Int.cast_add, h, hzero]; simp
    rw [(fadd_finite hx hy).2 hsum, hzero]
    suffices hs : (signBit x && signBit (i2f n)) = false by rw [hs]; decide
    rcases lt_trichotomy n 0 with hneg | rfl | hpos
    · have ha : (0 : ℚ) < a / 4 := by
        have : (0 : ℚ) < a := by exact_mod_cast (by omega : 0 < a)
        positivity
      rw [signBit_of_rat hx ha.ne']
      simp [ha.le]
    · rw [show signBit (i2f 0) = false by decide, Bool.and_false]
    · have hq : (0 : ℚ) < (4 * n : ℤ) / 4 := by
        have : (0 : ℚ) < (4 * n : ℤ) := by exact_mod_cast (by omega : 0 < 4 * n)
        positivity
      rw [signBit_of_rat hy hq.ne', decide_eq_false hq.not_gt, Bool.and_false]
  · have hsum := hx.fadd hy (by omega)
    rw [h] at hsum
    refine eq_of_rat_eq hsum (isQuarters_i2f (by omega)) ?_
    have : (4 * m : ℤ) ≠ 0 := by omega
    exact div_ne_zero (by exact_mod_cast this) four_ne_zero

end

end Sys2Proof.Machine.F64

namespace Sys2Proof.Machine

open F64

/-! ## The exact points of the curves -/

/-- An `i32` operand (R14). -/
theorem natAbs_toInt_le (x : Half) : x.toInt.natAbs ≤ 2 ^ 31 := by
  have hlo := BitVec.le_toInt x
  have hhi := BitVec.toInt_lt (x := x)
  omega

theorem isQuarters_minus5 : IsQuarters 0xC014000000000000 (-20) :=
  isQuarters_of_eq (n := -5) (by decide +kernel) (by norm_num)

theorem isQuarters_minus13 : IsQuarters 0xC02A000000000000 (-52) :=
  isQuarters_of_eq (n := -13) (by decide +kernel) (by norm_num)

theorem isQuarters_minus17 : IsQuarters 0xC031000000000000 (-68) :=
  isQuarters_of_eq (n := -17) (by decide +kernel) (by norm_num)

theorem isQuarters_minus25 : IsQuarters 0xC039000000000000 (-100) :=
  isQuarters_of_eq (n := -25) (by decide +kernel) (by norm_num)

theorem isQuarters_minus30 : IsQuarters 0xC03E000000000000 (-120) :=
  isQuarters_of_eq (n := -30) (by decide +kernel) (by norm_num)

theorem isQuarters_two : IsQuarters 0x4000000000000000 8 :=
  isQuarters_of_eq (n := 2) (by decide +kernel) (by norm_num)

/-- The volumes 0.0, -0.0 and -30.0 are in range and whole numbers of quarters. -/
theorem exactVolumes_inRange_isQuarters :
    (inRange 0 = true ∧ IsQuarters 0 0) ∧
      (inRange 0x8000000000000000 = true ∧ IsQuarters 0x8000000000000000 0) ∧
      (inRange 0xC03E000000000000 = true ∧ IsQuarters 0xC03E000000000000 (-120)) := by
  refine ⟨⟨?_, isQuarters_zero false⟩, ⟨?_, isQuarters_zero true⟩, ?_, isQuarters_minus30⟩
  all_goals rw [inRange, fpMinus30_eq]; decide

section
variable {vol : Word} {mx mn : ℤ} (hmx : mx.natAbs ≤ 2 ^ 31) (hmn : mn.natAbs ≤ 2 ^ 31)
include hmx hmn

/-- Flat is exact where the range times `30 + vol` is a multiple of 30 (R143). -/
theorem flatValue_exact {v r : ℤ} (hvol : IsQuarters vol (4 * v)) (hv : v.natAbs ≤ 30)
    (hr : (mx - mn) * (30 + v) = 30 * r) (hr' : r.natAbs ≤ 2 ^ 32) : flatValue vol mx mn = i2f (r + mn) := by
  have h30 : IsQuarters fp30 120 := isQuarters_i2f (n := 30) (by norm_num)
  have hprod : IsQuarters (fmul (i2f (mx - mn)) (fadd fp30 vol)) (120 * r) :=
    (isQuarters_i2f (by omega)).fmul (h30.fadd hvol (by omega)) (by linear_combination 16 * hr) (by omega)
  have hquot : IsQuarters (fdiv (fmul (i2f (mx - mn)) (fadd fp30 vol)) fp30) (4 * r) :=
    hprod.fdiv h30 (by norm_num) (by omega) (by omega)
  exact fadd_i2f hquot (by ring) (by omega) (by omega)

/-- Flat gives `max_db` at zero (R143). -/
theorem flat_zero (hr : inRange vol = true) (hvol : IsQuarters vol 0) : flat vol mx mn = .value (i2f mx) false := by
  have h := flatValue_exact hmx hmn (v := 0) (r := mx - mn) hvol (by norm_num) (by ring) (by omega)
  rw [flat, if_pos hr, h, sub_add_cancel]

/-- Flat gives `min_db` at -30 (R143). -/
theorem flat_minus30 (hr : inRange vol = true) (hvol : IsQuarters vol (-120)) :
    flat vol mx mn = .value (i2f mn) false := by
  have h := flatValue_exact hmx hmn (v := -30) (r := 0) hvol (by norm_num) (by ring) (by norm_num)
  rw [flat, if_pos hr, h, zero_add]

end

/-- `first_slope` is minus half the range, where the range is not negative (R147). -/
theorem firstSlope_exact {rf : Word} {r : ℤ} (hrf : IsQuarters rf (4 * r)) (hr : 0 ≤ r) (hr' : r ≤ 2 ^ 32) :
    IsQuarters (firstSlope rf) (-2 * r) := by
  have h2 : IsQuarters fp2 8 := isQuarters_i2f (n := 2) (by norm_num)
  have hneg : IsQuarters (fsub fp0 rf) (0 - 4 * r) := (isQuarters_zero false).fsub hrf (by omega)
  have hhalf : IsQuarters (fdiv (fsub fp0 rf) fp2) (-2 * r) := hneg.fdiv h2 (by norm_num) (by ring) (by omega)
  rw [firstSlope, hhalf.lt_eq hneg, decide_eq_false (by omega)]
  exact hhalf

section
variable {vol x y den acc : Word} {v a b d t n : ℤ}

/-- A turn for a segment that does not apply. -/
theorem segmentTurn_of_gt (hvol : IsQuarters vol v) (hx : IsQuarters x a) (h : a < v) :
    segmentTurn vol x y den acc = acc := by
  rw [segmentTurn, hvol.le_eq hx, decide_eq_false (by omega)]
  rfl

/-- A turn for a segment that applies and whose `t` is exact keeps the lesser value. -/
theorem segmentTurn_exact (hvol : IsQuarters vol v) (hx : IsQuarters x a) (hden : IsQuarters den d)
    (hacc : IsQuarters acc n) (hy : IsQuarters y b) (h : v ≤ a) (hva : (v - a).natAbs ≤ 2 ^ 53) (hd : d ≠ 0)
    {p : ℤ} (hp : b * (v - a) = 4 * p) (hp' : p.natAbs ≤ 2 ^ 53) (ht : 4 * p = t * d) (ht' : t.natAbs ≤ 2 ^ 53) :
    IsQuarters (segmentTurn vol x y den acc) (min t n) := by
  have hquot : IsQuarters (fdiv (fmul y (fsub vol x)) den) t := (hy.fmul (hvol.fsub hx hva) hp hp').fdiv hden hd ht ht'
  rw [segmentTurn, hvol.le_eq hx, decide_eq_true h, hquot.lt_eq hacc, Bool.true_and]
  rcases lt_or_ge t n with hlt | hge
  · rw [min_eq_left hlt.le, decide_eq_true hlt]
    exact hquot
  · rw [min_eq_right hge, decide_eq_false (by omega)]
    exact hacc

end

section
variable {vol rf : Word} {r : ℤ} (hrf : IsQuarters rf (4 * r)) (hr : 0 ≤ r) (hr' : r ≤ 2 ^ 32)
include hrf hr hr'

/-- At zero only the first segment applies, and its `t` is zero (R147). -/
theorem segmentMinimum_zero (hvol : IsQuarters vol 0) : IsQuarters (segmentMinimum vol rf) 0 := by
  have hzero : IsQuarters 0 0 := isQuarters_zero false
  have hfs := firstSlope_exact hrf hr hr'
  rw [segmentMinimum, segmentTurn_of_gt hvol isQuarters_minus17 (by norm_num),
    segmentTurn_of_gt hvol isQuarters_minus5 (by norm_num)]
  exact segmentTurn_exact (t := 0) (n := 0) (p := 0) hvol hzero isQuarters_minus30 hzero hfs le_rfl (by norm_num)
    (by norm_num) (by ring) (by norm_num) (by norm_num) (by norm_num)

/-- At -30 each segment's `t` is its `y`, and the last is the least: minus the range (R147). -/
theorem segmentMinimum_minus30 (hvol : IsQuarters vol (-120)) : IsQuarters (segmentMinimum vol rf) (-4 * r) := by
  have hzero : IsQuarters 0 0 := isQuarters_zero false
  have hfs := firstSlope_exact hrf hr hr'
  have hhalf : IsQuarters (fdiv (fadd rf (firstSlope rf)) 0x4000000000000000) r :=
    (hrf.fadd hfs (by omega)).fdiv isQuarters_two (by norm_num) (by ring) (by omega)
  have hy1 := hfs.fsub hhalf (by omega)
  have hy2 := hzero.fsub hrf (by omega)
  have hacc0 := segmentTurn_exact (t := -2 * r) (p := 60 * r) hvol hzero isQuarters_minus30 hzero hfs (by norm_num)
    (by norm_num) (by norm_num) (by ring) (by omega) (by ring) (by omega)
  have hacc1 := segmentTurn_exact (t := -3 * r) (p := 75 * r) hvol isQuarters_minus5 isQuarters_minus25 hacc0 hy1
    (by norm_num) (by norm_num) (by norm_num) (by ring) (by omega) (by ring) (by omega)
  have hacc2 := segmentTurn_exact (t := -4 * r) (p := 52 * r) hvol isQuarters_minus17 isQuarters_minus13 hacc1 hy2
    (by norm_num) (by norm_num) (by norm_num) (by ring) (by omega) (by ring) (by omega)
  rwa [min_eq_left (by omega)] at hacc2

end

section
variable {vol : Word} {mx mn : ℤ} (hmx : mx.natAbs ≤ 2 ^ 31) (hmn : mn.natAbs ≤ 2 ^ 31) (hle : mn ≤ mx)
include hmx hmn hle

/-- Segmented gives `max_db` at zero (R147). -/
theorem segmented_zero (hr : inRange vol = true) (hvol : IsQuarters vol 0) :
    segmented vol mx mn = .value (i2f mx) false := by
  have hmin := segmentMinimum_zero (isQuarters_i2f (n := mx - mn) (by omega)) (by omega) (by omega) hvol
  rw [segmented_of_inRange hr, fadd_i2f hmin (zero_add _) (by omega) (by omega)]

/-- Segmented gives `min_db` at -30 (R147). -/
theorem segmented_minus30 (hr : inRange vol = true) (hvol : IsQuarters vol (-120)) :
    segmented vol mx mn = .value (i2f mn) false := by
  have hmin := segmentMinimum_minus30 (isQuarters_i2f (n := mx - mn) (by omega)) (by omega) (by omega) hvol
  rw [segmented_of_inRange hr, fadd_i2f hmin (m := mn) (by ring) (by omega) (by omega)]

end

/-- Settles O44: every step of Flat and Segmented at these points is exact. -/
theorem curveEndpointsAreExact : Obligations.CurveEndpointsAreExact := by
  intro mx mn
  have hmx := natAbs_toInt_le mx
  have hmn := natAbs_toInt_le mn
  obtain ⟨⟨r0, h0⟩, ⟨rneg, hneg⟩, r30, h30⟩ := exactVolumes_inRange_isQuarters
  exact ⟨⟨flat_zero hmx hmn r0 h0, flat_zero hmx hmn rneg hneg, flat_minus30 hmx hmn r30 h30⟩, fun hle =>
    ⟨segmented_zero hmx hmn hle r0 h0, segmented_zero hmx hmn hle rneg hneg, segmented_minus30 hmx hmn hle r30 h30⟩⟩

end Sys2Proof.Machine

namespace Sys2Proof.Machine.F64

/-! ## `LOG2` of a power of two -/

/-- A positive value in the form `log2` reads it. -/
theorem unpack_of_pos {x : Word} {r : ℚ} (hx : rat x = some r) (hr : 0 < r) :
    ∃ m e, unpack x = .fin false m e ∧ m ≠ 0 ∧ m < 2 ^ 53 ∧ r = m * 2 ^ e := by
  obtain ⟨m, e, hu, hm, hv⟩ := rat_unpack hx
  have hs : signBit x = false := by rw [signBit_of_rat hx hr.ne', decide_eq_false hr.not_gt]
  rw [hs, sgn, if_neg Bool.false_ne_true, one_mul] at hv
  exact ⟨m, e, hs ▸ hu, fun h => hr.ne' (by rw [← hv, h, Nat.cast_zero, zero_mul]), hm, hv.symm⟩

theorem bitLength_two_pow (t : ℕ) : bitLength (2 ^ t) = t + 1 := by
  rw [bitLength, if_neg (by positivity), Nat.log2_two_pow]

/-- A significand whose value is a power of two is one. -/
theorem significand_of_two_zpow {m : ℕ} {e k : ℤ} (hm : m ≠ 0) (h : (m : ℚ) * 2 ^ e = 2 ^ k) :
    ∃ t : ℕ, m = 2 ^ t ∧ e + t = k := by
  have hm' : (m : ℚ) = 2 ^ (k - e) := by rw [zpow_sub₀ two_ne_zero, ← h, mul_div_cancel_right₀ _ (by positivity)]
  have hge : 0 ≤ k - e := by
    rw [← zpow_le_zpow_iff_right₀ (one_lt_two (α := ℚ)), zpow_zero, ← hm']
    exact_mod_cast Nat.one_le_iff_ne_zero.mpr hm
  obtain ⟨t, ht⟩ := Int.eq_ofNat_of_zero_le hge
  rw [ht, zpow_natCast] at hm'
  exact ⟨t, by exact_mod_cast hm', by omega⟩

/-- `LOG2` of a power of two is its exponent (R146, P2). -/
theorem log2_two_zpow {x : Word} {k : ℤ} (hx : rat x = some (2 ^ k)) (hk : k ≤ 0) : log2 x = i2f k := by
  obtain ⟨m, e, hu, hm, -, hr⟩ := unpack_of_pos hx (by positivity)
  obtain ⟨t, rfl, rfl⟩ := significand_of_two_zpow hm hr.symm
  simp only [log2, hu, bitLength_two_pow, Nat.add_sub_cancel]
  exact if_pos ⟨hm, trivial, hk⟩

/-- Settles O46: a power of two down to the smallest subnormal is rounded to itself. -/
theorem log2IsExactOnPowersOfTwo : Obligations.Log2IsExactOnPowersOfTwo := by
  intro k hk
  refine log2_two_zpow ?_ (by omega)
  rw [rat_round false (by norm_num) (by omega) (by omega)]
  simp [sgn]

end Sys2Proof.Machine.F64

namespace Sys2Proof.Machine

open F64

/-! ## The exact points of the Tapered curve -/

/-- `LOG2` of an exact power of two, times 1000 (R144, R146). -/
theorem fp1000_mul_log2 {pct : Word} {k : ℤ} (hpct : rat pct = some (2 ^ k)) (hk : k ≤ 0) (hk' : -1074 ≤ k) :
    IsQuarters (fmul fp1000 (log2 pct)) (4 * (1000 * k)) := by
  have h1000 : IsQuarters fp1000 (4 * 1000) := isQuarters_i2f (by norm_num)
  rw [log2_two_zpow hpct hk]
  exact h1000.fmul (isQuarters_i2f (by omega)) (by ring) (by omega)

/-- The pattern of one half. -/
theorem rat_half : rat 0x3FE0000000000000 = some (2 ^ (-1 : ℤ)) := by
  rw [← show round false 1 (-1) = 0x3FE0000000000000 by decide +kernel,
    rat_round false (by norm_num) (by norm_num) (by norm_num)]
  simp [sgn]

section
variable {vol : Word} {mx mn : ℤ} (hmx : mx.natAbs ≤ 2 ^ 31) (hmn : mn.natAbs ≤ 2 ^ 31)
include hmx

/-- The logarithmic curve where `pct` is a power of two: each halving is 1000 less (R145). -/
theorem taper_log_exact {pct : Word} {k : ℤ} (hpct : rat pct = some (2 ^ k)) (hk : k ≤ 0) (hk' : -1074 ≤ k) :
    fadd (i2f mx) (fmul fp1000 (log2 pct)) = i2f (mx + 1000 * k) := by
  rw [fadd_comm]
  exact fadd_i2f (fp1000_mul_log2 hpct hk hk') (by ring) (by omega) (by omega)

include hmn

/-- The straight line at one half (R144). -/
theorem taper_line_half : fadd (i2f mn) (fmul (i2f (mx - mn)) 0x3FE0000000000000) =
    fdiv (i2f (mx + mn)) 0x4000000000000000 := by
  have hhalf : IsQuarters 0x3FE0000000000000 2 := by rw [IsQuarters, rat_half]; norm_num
  have hprod : IsQuarters (fmul (i2f (mx - mn)) 0x3FE0000000000000) (2 * (mx - mn)) :=
    (isQuarters_i2f (by omega)).fmul hhalf (by ring) (by omega)
  by_cases hzero : mx + mn = 0
  · rw [fadd_comm, fadd_i2f hprod (m := 0) (by omega) (by omega) (by norm_num), hzero]
    decide +kernel
  · have hline := (isQuarters_i2f (n := mn) (by omega)).fadd hprod (by omega)
    have hmean : IsQuarters (fdiv (i2f (mx + mn)) 0x4000000000000000) (2 * (mx + mn)) :=
      (isQuarters_i2f (by omega)).fdiv isQuarters_two (by norm_num) (by ring) (by omega)
    rw [show 4 * mn + 2 * (mx - mn) = 2 * (mx + mn) by ring] at hline
    have hne : 2 * (mx + mn) ≠ 0 := by omega
    exact eq_of_rat_eq hline hmean (div_ne_zero (by exact_mod_cast hne) four_ne_zero)

/-- Tapered gives `max_db` at zero, where both candidates are `max_db` (R144). -/
theorem tapered_zero (hr : inRange vol = true) (hpct : taperPct vol = fp1) :
    tapered vol mx mn = .value (i2f mx) false := by
  have h1 : IsQuarters fp1 4 := isQuarters_i2f (n := 1) (by norm_num)
  have htap : fadd (i2f mx) (fmul fp1000 (log2 fp1)) = i2f mx := by
    rw [taper_log_exact hmx (k := 0) (by rw [fp1, rat_i2f (by norm_num)]; norm_num) le_rfl (by norm_num), mul_zero,
      add_zero]
  have hline : fadd (i2f mn) (fmul (i2f (mx - mn)) fp1) = i2f mx := by
    have hprod : IsQuarters (fmul (i2f (mx - mn)) fp1) (4 * (mx - mn)) :=
      (isQuarters_i2f (by omega)).fmul h1 (by ring) (by omega)
    rw [fadd_comm, fadd_i2f hprod (by ring) (by omega) (by omega)]
  have hmx' : lt (i2f mx) (i2f mx) = false := by simp [lt]
  have hpos : le fp1 fp0 = false := by decide +kernel
  rw [tapered, if_pos hr, taperedValue, hpct]
  simp only [hpos, hline, htap, hmx', Bool.false_eq_true, if_false]

omit hmx hmn in
/-- Tapered gives `min_db` at -30, where `pct` is zero (R144). -/
theorem tapered_minus30 (hr : inRange vol = true) (hpct : taperPct vol = 0) :
    tapered vol mx mn = .value (i2f mn) false := by
  have hpos : le 0 fp0 = true := by decide
  rw [tapered, if_pos hr, taperedValue, hpct]
  simp only [hpos, if_true]

/-- Tapered at -15: `max_db - 1000`, or the straight line where that is above it, and neither is above `max_db`
(R145). -/
theorem tapered_minus15 (hle : mn ≤ mx) (hr : inRange vol = true) (hpct : taperPct vol = 0x3FE0000000000000) :
    tapered vol mx mn = .value
      (if 2000 ≤ mx - mn then i2f (mx - 1000) else fdiv (i2f (mx + mn)) 0x4000000000000000) false := by
  have hpos : le 0x3FE0000000000000 fp0 = false := by decide
  have hlog : fadd (i2f mx) (fmul fp1000 (log2 0x3FE0000000000000)) = i2f (mx - 1000) :=
    taper_log_exact hmx rat_half (by norm_num) (by norm_num)
  have htop := isQuarters_i2f (n := mx) (by omega)
  have htap := isQuarters_i2f (n := mx - 1000) (by omega)
  have hline : IsQuarters (fdiv (i2f (mx + mn)) 0x4000000000000000) (2 * (mx + mn)) :=
    (isQuarters_i2f (by omega)).fdiv isQuarters_two (by norm_num) (by ring) (by omega)
  rw [tapered, if_pos hr, taperedValue, hpct]
  simp only [hpos, hlog, taper_line_half hmx hmn, htap.lt_eq hline]
  by_cases hrange : 2000 ≤ mx - mn
  · have hclamp : lt (i2f mx) (i2f (mx - 1000)) = false := by rw [htop.lt_eq htap, decide_eq_false (by omega)]
    rw [decide_eq_false (by omega), if_pos hrange]
    simp only [hclamp, Bool.false_eq_true, if_false]
  · have hclamp : lt (i2f mx) (fdiv (i2f (mx + mn)) 0x4000000000000000) = false := by
      rw [htop.lt_eq hline, decide_eq_false (by omega)]
    rw [decide_eq_true (by omega), if_neg hrange]
    simp only [hclamp, Bool.false_eq_true, if_false, if_true]

end

/-- Settles O45: at these points `pct` is 1, 0 and one half, `LOG2` is exact and so is every other step. -/
theorem taperedExactPoints : Obligations.TaperedExactPoints := by
  intro mx mn hle
  have hmx := natAbs_toInt_le mx
  have hmn := natAbs_toInt_le mn
  obtain ⟨⟨r0, -⟩, ⟨rneg, -⟩, r30, -⟩ := exactVolumes_inRange_isQuarters
  have r15 : inRange 0xC02E000000000000 = true := by rw [inRange, fpMinus30_eq]; decide
  exact ⟨tapered_zero hmx hmn r0 (by decide +kernel), tapered_zero hmx hmn rneg (by decide +kernel),
    tapered_minus30 r30 (by decide +kernel), tapered_minus15 hmx hmn hle r15 (by decide +kernel)⟩

end Sys2Proof.Machine

namespace Sys2Proof.Machine.F64

/-! ## The digits of the logarithm

`log2Digits` squares a number between 1 and 2, kept as a multiple `z` of `2^-240`, and rounds each square down. -/

/-- The base-2 logarithm of `z / 2^240`. -/
noncomputable def fracLog (z : ℕ) : ℝ := Real.logb 2 z - log2Precision

/-- A number from 1 on has a logarithm from 0 on. -/
theorem fracLog_nonneg {z : ℕ} (hz : 2 ^ log2Precision ≤ z) : 0 ≤ fracLog z := by
  have hpos : (0 : ℝ) < z := by exact_mod_cast (Nat.two_pow_pos _).trans_le hz
  rw [fracLog, sub_nonneg, Real.le_logb_iff_rpow_le one_lt_two hpos, Real.rpow_natCast]
  exact_mod_cast hz

/-- A number below 2 has a logarithm below 1. -/
theorem fracLog_le_one {z : ℕ} (hz : 2 ^ log2Precision ≤ z) (hz' : z < 2 * 2 ^ log2Precision) : fracLog z ≤ 1 := by
  have hpos : (0 : ℝ) < z := by exact_mod_cast (Nat.two_pow_pos _).trans_le hz
  rw [fracLog, sub_le_iff_le_add', Real.logb_le_iff_le_rpow one_lt_two hpos, ← Nat.cast_add_one,
    Real.rpow_natCast, pow_succ']
  exact_mod_cast hz'.le

/-- What one unit of `2^-240` adds to the logarithm is far below the digits that are kept. -/
theorem fracLog_succ_le {z : ℕ} (hz : 2 ^ log2Precision ≤ z) :
    fracLog (z + 1) ≤ fracLog z + (2 ^ log2Places)⁻¹ := by
  have hzR : (2 : ℝ) ^ 240 ≤ z := by exact_mod_cast hz
  have hpos : (0 : ℝ) < z := lt_of_lt_of_le (by positivity) hzR
  have hlog : Real.logb 2 ((z + 1 : ℕ) : ℝ) - Real.logb 2 z = Real.log (1 + 1 / z) / Real.log 2 := by
    rw [← Real.logb_div (by positivity) hpos.ne', Real.logb]
    congr 2
    push_cast
    field_simp
  have hlog1 : Real.log (1 + 1 / z) ≤ 1 / z := by
    have := Real.log_le_sub_one_of_pos (show (0 : ℝ) < 1 + 1 / z by positivity)
    linarith
  have hlog2 : (1 : ℝ) / 2 < Real.log 2 := by linarith [Real.log_two_gt_d9]
  have hsmall : (1 : ℝ) / z ≤ (2 ^ 240)⁻¹ := by
    rw [one_div]
    exact inv_anti₀ (by positivity) hzR
  have hbound : Real.log (1 + 1 / z) / Real.log 2 ≤ (2 ^ 140)⁻¹ := by
    rw [div_le_iff₀ (by linarith)]
    have : (2 : ℝ) * (2 ^ 240)⁻¹ ≤ (2 ^ 140)⁻¹ := by norm_num
    nlinarith [show (0 : ℝ) < (2 ^ 140)⁻¹ by positivity]
  rw [fracLog, fracLog, log2Places]
  linarith

/-- The square of a number between 1 and 2 lies between 1 and 4. -/
theorem square_bounds {z : ℕ} (hz : 2 ^ log2Precision ≤ z) (hz' : z < 2 * 2 ^ log2Precision) :
    2 ^ log2Precision ≤ z * z / 2 ^ log2Precision ∧ z * z / 2 ^ log2Precision < 4 * 2 ^ log2Precision := by
  have hpos := Nat.two_pow_pos log2Precision
  rw [Nat.le_div_iff_mul_le hpos, Nat.div_lt_iff_lt_mul hpos]
  exact ⟨Nat.mul_le_mul hz hz, (Nat.mul_lt_mul'' hz' hz').trans_le (by ring_nf; rfl)⟩

/-- One turn of `log2Digits`: a digit `b`, and the next number `z'`, which is the square without the digit, rounded
down. -/
theorem log2Digits_step {z : ℕ} (hz : 2 ^ log2Precision ≤ z) (hz' : z < 2 * 2 ^ log2Precision) :
    ∃ b z', b ≤ 1 ∧ (2 ^ log2Precision ≤ z' ∧ z' < 2 * 2 ^ log2Precision) ∧
      (2 ^ b * z' ≤ z * z / 2 ^ log2Precision ∧ z * z / 2 ^ log2Precision < 2 ^ b * (z' + 1)) ∧
      ∀ k acc, log2Digits (k + 1) z acc = log2Digits k z' (2 * acc + b) := by
  obtain ⟨hlow, hhigh⟩ := square_bounds hz hz'
  by_cases hbit : 2 ^ (log2Precision + 1) ≤ z * z / 2 ^ log2Precision
  · refine ⟨1, z * z / 2 ^ log2Precision / 2, le_rfl, ?_, ?_, fun k acc => by rw [log2Digits]; exact if_pos hbit⟩
    · rw [pow_succ] at hbit
      omega
    · omega
  · refine ⟨0, z * z / 2 ^ log2Precision, Nat.zero_le _, ?_, ?_, fun k acc => by rw [log2Digits]; exact if_neg hbit⟩
    · rw [pow_succ] at hbit
      omega
    · omega

/-- A digit and the logarithm that goes on give twice the logarithm, up to the rounding. -/
theorem fracLog_step {z z' b : ℕ} (hz : 2 ^ log2Precision ≤ z) (hz' : 2 ^ log2Precision ≤ z')
    (hlow : 2 ^ b * z' ≤ z * z / 2 ^ log2Precision) (hhigh : z * z / 2 ^ log2Precision < 2 ^ b * (z' + 1)) :
    b + fracLog z' ≤ 2 * fracLog z ∧ 2 * fracLog z ≤ b + fracLog z' + (2 ^ log2Places)⁻¹ := by
  have hpos := Nat.two_pow_pos log2Precision
  rw [Nat.le_div_iff_mul_le hpos] at hlow
  rw [Nat.div_lt_iff_lt_mul hpos] at hhigh
  have hzpos : 0 < z := hpos.trans_le hz
  have hzpos' : 0 < z' := hpos.trans_le hz'
  have hz0 : (z : ℝ) ≠ 0 := by positivity
  have hsquare : Real.logb 2 (z * z : ℕ) = 2 * fracLog z + 2 * log2Precision := by
    rw [Nat.cast_mul, Real.logb_mul hz0 hz0, fracLog]
    ring
  have hside : ∀ y : ℕ, y ≠ 0 →
      Real.logb 2 (2 ^ b * y * 2 ^ log2Precision : ℕ) = b + fracLog y + 2 * log2Precision := fun y hy => by
    have hy0 : (y : ℝ) ≠ 0 := by exact_mod_cast hy
    push_cast
    rw [Real.logb_mul (by positivity) (by positivity), Real.logb_mul (by positivity) hy0, Real.logb_pow, Real.logb_pow,
      Real.logb_self_eq_one one_lt_two, fracLog]
    ring
  have hlowLog := Real.logb_le_logb_of_le one_lt_two (by positivity) (Nat.cast_le (α := ℝ).mpr hlow)
  have hhighLog := Real.logb_le_logb_of_le one_lt_two (by positivity) (Nat.cast_le (α := ℝ).mpr hhigh.le)
  have hsucc := fracLog_succ_le hz'
  rw [hsquare, hside _ hzpos'.ne'] at hlowLog
  rw [hsquare, hside _ z'.succ_ne_zero] at hhighLog
  constructor <;> linarith

/-- The digits are those of the logarithm, up to a unit of the last one and what the roundings add. -/
theorem log2Digits_bounds (k z acc : ℕ) (hz : 2 ^ log2Precision ≤ z) (hz' : z < 2 * 2 ^ log2Precision) :
    ∃ d < 2 ^ k, log2Digits k z acc = acc * 2 ^ k + d ∧ (d : ℝ) ≤ 2 ^ k * fracLog z ∧
      2 ^ k * fracLog z ≤ d + 1 + (2 ^ k - 1) * (2 ^ log2Places)⁻¹ := by
  induction k generalizing z acc with
  | zero =>
    refine ⟨0, by norm_num, by simp [log2Digits], ?_, ?_⟩
    · simpa using fracLog_nonneg hz
    · simpa using fracLog_le_one hz hz'
  | succ k ih =>
    obtain ⟨b, z', hb, ⟨hlow, hhigh⟩, ⟨hsqlow, hsqhigh⟩, hdigits⟩ := log2Digits_step hz hz'
    obtain ⟨hstep, hstep'⟩ := fracLog_step hz hlow hsqlow hsqhigh
    obtain ⟨d, hd, hrest, hlo, hhi⟩ := ih z' (2 * acc + b) hlow hhigh
    have hpow : (0 : ℝ) < 2 ^ k := by positivity
    refine ⟨b * 2 ^ k + d, ?_, ?_, ?_, ?_⟩
    · rw [pow_succ]
      have := Nat.mul_le_mul_right (2 ^ k) hb
      omega
    · rw [hdigits, hrest]
      ring
    · have := mul_le_mul_of_nonneg_left hstep hpow.le
      push_cast
      rw [pow_succ]
      linarith
    · have := mul_le_mul_of_nonneg_left hstep' hpow.le
      push_cast
      rw [pow_succ]
      linarith

/-- All digits that are kept: the roundings add less than one unit of the last. -/
theorem log2Digits_log2Places {z : ℕ} (hz : 2 ^ log2Precision ≤ z) (hz' : z < 2 * 2 ^ log2Precision) :
    log2Digits log2Places z 0 < 2 ^ log2Places ∧ (log2Digits log2Places z 0 : ℝ) ≤ 2 ^ log2Places * fracLog z ∧
      2 ^ log2Places * fracLog z ≤ log2Digits log2Places z 0 + 2 := by
  obtain ⟨d, hd, heq, hlo, hhi⟩ := log2Digits_bounds log2Places z 0 hz hz'
  rw [Nat.zero_mul, Nat.zero_add] at heq
  have hsum : ((2 : ℝ) ^ log2Places - 1) * (2 ^ log2Places)⁻¹ ≤ 1 := by
    rw [← div_eq_mul_inv, div_le_one (by positivity)]
    linarith
  rw [heq]
  exact ⟨hd, hlo, by linarith⟩

end Sys2Proof.Machine.F64

namespace Sys2Proof.Machine.F64

/-! ## The results `LOG2` can take -/

/-- The digits of a significand: it lies between two powers of two. -/
theorem bitLength_bounds {m : ℕ} (hm : m ≠ 0) : 2 ^ (bitLength m - 1) ≤ m ∧ m < 2 * 2 ^ (bitLength m - 1) := by
  rw [bitLength, if_neg hm, Nat.add_sub_cancel, ← pow_succ']
  exact ⟨Nat.log2_self_le hm, Nat.lt_log2_self⟩

/-- `negLog2Floor` is within a unit of its last digit. -/
theorem negLog2Floor_bounds {m : ℕ} {e : ℤ} (hm : m ≠ 0) (hm' : m < 2 ^ 53) (he : e + (bitLength m - 1 : ℕ) < 0) :
    (negLog2Floor m e : ℝ) - 1 ≤ -Real.logb 2 (m * 2 ^ e) * 2 ^ log2Places ∧
      -Real.logb 2 (m * 2 ^ e) * 2 ^ log2Places ≤ negLog2Floor m e + 1 := by
  obtain ⟨hlow, hhigh⟩ := bitLength_bounds hm
  have htop : bitLength m - 1 ≤ log2Precision :=
    (Nat.pow_lt_pow_iff_right (by norm_num)).mp (hlow.trans_lt hm') |>.le.trans (by norm_num [log2Precision])
  rw [negLog2Floor]
  generalize bitLength m - 1 = top at *
  obtain ⟨whole, hwhole⟩ : ∃ w : ℕ, (w : ℤ) = -(e + top) := ⟨_, Int.toNat_of_nonneg (by omega)⟩
  have hsplit : 2 ^ top * 2 ^ (log2Precision - top) = 2 ^ log2Precision := by rw [← pow_add, Nat.add_sub_cancel' htop]
  have hz : 2 ^ log2Precision ≤ m * 2 ^ (log2Precision - top) := by
    rw [← hsplit]
    exact Nat.mul_le_mul_right _ hlow
  have hz' : m * 2 ^ (log2Precision - top) < 2 * 2 ^ log2Precision := by
    rw [← hsplit, ← mul_assoc]
    exact Nat.mul_lt_mul_of_pos_right hhigh (Nat.two_pow_pos _)
  obtain ⟨hD, hlo, hhi⟩ := log2Digits_log2Places hz hz'
  have hlog : -Real.logb 2 (m * 2 ^ e) = whole - fracLog (m * 2 ^ (log2Precision - top)) := by
    have hm0 : (m : ℝ) ≠ 0 := by exact_mod_cast hm
    have hw : (whole : ℝ) = -(e + top) := by exact_mod_cast congrArg (Int.cast (R := ℝ)) hwhole
    rw [fracLog, Nat.cast_mul, Nat.cast_pow, Nat.cast_ofNat, Real.logb_mul hm0 (by positivity),
      Real.logb_mul hm0 (by positivity), Real.logb_pow, Real.logb_self_eq_one one_lt_two,
      ← Real.rpow_intCast 2 e, Real.logb_rpow two_pos (by norm_num), Nat.cast_sub htop, hw]
    ring
  simp only [← hwhole, Int.toNat_natCast]
  generalize log2Digits log2Places (m * 2 ^ (log2Precision - top)) 0 = D at *
  have hsub : ((whole * 2 ^ log2Places - D - 1 : ℕ) : ℝ) = whole * 2 ^ log2Places - D - 1 := by
    have hroom : D + 1 ≤ whole * 2 ^ log2Places := hD.trans_le (Nat.le_mul_of_pos_left _ (by omega))
    rw [Nat.sub_sub, Nat.cast_sub hroom]
    push_cast
    ring
  rw [hlog, hsub]
  constructor <;> linarith

/-- A pattern is within one unit in the last place of a real, the unit being that of the binade the real lies in (R146,
P3; log 2). -/
def WithinUlp (w : Word) (X : ℝ) : Prop :=
  ∃ l : ℚ, rat w = some l ∧ |(l : ℝ) - X| ≤ (2 : ℝ) ^ (Int.log 2 |X| - 52)

/-- A negative value rounded from at most 53 digits, in units of `2^-140`: a real `-Y` with 53 digits from the unit `2^drop`
up has that unit in its last place, or a larger one. -/
theorem withinUlp_round {n j drop : ℕ} {Y : ℝ} (hn : n ≤ 2 ^ 53) (hj : j ≤ log2Places) (hY : 2 ^ (52 + drop) ≤ Y)
    (h : |(n : ℝ) * 2 ^ j - Y| ≤ 2 ^ drop) :
    WithinUlp (round true n ((j : ℤ) - log2Places)) (-(Y / 2 ^ log2Places)) := by
  have hP : (0 : ℝ) < 2 ^ log2Places := by positivity
  have hYpos : 0 < Y := lt_of_lt_of_le (by positivity) hY
  refine ⟨_, rat_round true hn (by rw [log2Places]; omega) (by omega), ?_⟩
  have hunit : (2 : ℝ) ^ drop / 2 ^ log2Places ≤ 2 ^ (Int.log 2 |-(Y / 2 ^ log2Places)| - 52) := by
    have hlog : ((52 + drop : ℕ) : ℤ) - log2Places ≤ Int.log 2 |-(Y / 2 ^ log2Places)| := by
      have hquot : 0 < Y / 2 ^ log2Places := div_pos hYpos hP
      rw [abs_neg, abs_of_pos hquot, ← Int.zpow_le_iff_le_log one_lt_two hquot, Nat.cast_ofNat,
        zpow_sub₀ two_ne_zero, zpow_natCast, zpow_natCast]
      gcongr
    calc (2 : ℝ) ^ drop / 2 ^ log2Places = 2 ^ ((drop : ℤ) - log2Places) := by
          rw [zpow_sub₀ two_ne_zero, zpow_natCast, zpow_natCast]
      _ ≤ _ := zpow_le_zpow_right₀ one_le_two (by omega)
  refine le_trans (le_of_eq_of_le ?_ (div_le_div_of_nonneg_right h hP.le)) hunit
  rw [← abs_of_pos hP, ← abs_div, abs_of_pos hP, ← abs_neg]
  congr 1
  push_cast
  rw [zpow_sub₀ two_ne_zero, zpow_natCast, zpow_natCast, sgn]
  simp
  ring

/-- A pattern is one of the candidates. -/
def Log2Candidates.Admits (c : Log2Candidates) (w : Word) : Prop :=
  w = c.nearer ∨ w = c.farther ∨ c.belowPower = some w

/-- `LOG2` off the powers of two takes one of the candidates, whichever is picked (log 2). -/
theorem log2_admitted {x : Word} {m : ℕ} {e : ℤ} (hu : unpack x = .fin false m e) (hm : m ≠ 0)
    (hpower : m ≠ 2 ^ (bitLength m - 1)) (he : e + (bitLength m - 1 : ℕ) < 0) {c : Log2Candidates}
    (hc : log2Candidates (negLog2Floor m e) = c) : c.Admits (log2 x) := by
  simp only [log2, hu]
  rw [if_neg (fun h => hpower h.2.1), if_pos ⟨hm, he⟩, hc]
  split
  · exact .inl rfl
  · exact .inr (.inl rfl)
  · cases hbelow : c.belowPower with
    | none => exact .inl rfl
    | some w => exact .inr (.inr hbelow)

/-- The 53 leading digits of a longer number, and the number of places after them. -/
theorem leading_digits {u : ℕ} (hu : 2 ^ 53 ≤ u) : ∃ d, bitLength u - 53 = d + 1 ∧
    2 ^ (53 + d) ≤ u ∧ 2 ^ 52 ≤ u / 2 ^ (d + 1) ∧ u / 2 ^ (d + 1) < 2 ^ 53 := by
  have hu0 : u ≠ 0 := by omega
  have hlen : 53 ≤ u.log2 := (Nat.le_log2 hu0).mpr hu
  obtain ⟨d, hd⟩ := Nat.exists_eq_add_of_le hlen
  have hlow : 2 ^ (53 + d) ≤ u := hd ▸ Nat.log2_self_le hu0
  have hhigh : u < 2 ^ (53 + d + 1) := hd ▸ Nat.lt_log2_self
  refine ⟨d, by rw [bitLength, if_neg hu0]; omega, hlow, ?_, ?_⟩
  · rw [Nat.le_div_iff_mul_le (Nat.two_pow_pos _), ← pow_add]
    exact (Nat.pow_le_pow_right two_pos (by omega)).trans hlow
  · rw [Nat.div_lt_iff_lt_mul (Nat.two_pow_pos _), ← pow_add]
    exact hhigh.trans_le (Nat.pow_le_pow_right two_pos (by omega))

/-- Every candidate for a real within a unit of `u + 1` is within one unit in the last place of it (R146, P3). -/
theorem Log2Candidates.Admits.withinUlp {u : ℕ} {Y : ℝ} {w : Word} (hw : (log2Candidates (u + 1)).Admits w)
    (hu : 2 ^ 53 ≤ u) (hu' : u < 2 ^ 190) (hlo : u ≤ Y) (hhi : Y ≤ u + 2) :
    WithinUlp w (-(Y / 2 ^ log2Places)) := by
  obtain ⟨d, hd, hlen, hq, hq'⟩ := leading_digits hu
  have hplaces : d + 1 ≤ log2Places := by
    have := (Nat.pow_lt_pow_iff_right (a := 2) (by norm_num)).mp (hlen.trans_lt hu')
    rw [log2Places]
    omega
  have hY : (2 : ℝ) ^ (52 + (d + 1)) ≤ Y := by
    refine le_trans ?_ hlo
    rw [show 52 + (d + 1) = 53 + d by omega]
    exact_mod_cast hlen
  have hround : ∀ n j : ℕ, n ≤ 2 ^ 53 → j ≤ d + 1 → |(n : ℝ) * 2 ^ j - Y| ≤ 2 ^ (d + 1) →
      WithinUlp (round true n ((j : ℤ) - log2Places)) (-(Y / 2 ^ log2Places)) :=
    fun n j hn hj h => withinUlp_round hn (hj.trans hplaces) hY h
  have hbelow := Nat.div_mul_le_self u (2 ^ (d + 1))
  have habove := Nat.lt_div_mul_add (a := u) (Nat.two_pow_pos (d + 1))
  simp only [log2Candidates, Nat.add_sub_cancel, hd] at hw
  generalize u / 2 ^ (d + 1) = q at *
  have hbelowR : (q : ℝ) * 2 ^ (d + 1) ≤ u := by exact_mod_cast hbelow
  have hhalf : (2 : ℝ) ^ (d + 1) = 2 * 2 ^ d := pow_succ' 2 d
  have hpow : (1 : ℝ) ≤ 2 ^ d := one_le_pow₀ one_le_two
  split at hw
  case isTrue hroom =>
    have hroomR : (u : ℝ) + 1 + 1 ≤ (q + 1) * 2 ^ (d + 1) := by exact_mod_cast hroom
    rcases hw with rfl | rfl | hpower
    · refine hround q (d + 1) hq'.le le_rfl (abs_le.mpr ⟨?_, ?_⟩) <;> linarith
    · refine hround (q + 1) (d + 1) hq' le_rfl (abs_le.mpr ⟨?_, ?_⟩) <;> push_cast <;> linarith
    · rw [Option.ite_none_right_eq_some] at hpower
      obtain ⟨⟨rfl, hnear⟩, hw⟩ := hpower
      obtain rfl := Option.some.inj hw
      have hnearR : (u : ℝ) + 1 + 1 ≤ 2 ^ 52 * 2 ^ (d + 1) + 2 ^ d := by exact_mod_cast hnear
      have hexp : ((d + 1 : ℕ) : ℤ) - log2Places - 1 = (d : ℤ) - log2Places := by push_cast; ring
      rw [hexp]
      push_cast at hbelowR
      refine hround (2 ^ 53 - 1) d (by norm_num) (by omega) (abs_le.mpr ⟨?_, ?_⟩) <;> norm_num <;> linarith
  case isFalse hfull =>
    have hmid : u + 1 = (q + 1) * 2 ^ (d + 1) := by rw [add_one_mul] at hfull ⊢; omega
    have hmidR : (u : ℝ) + 1 = (q + 1) * 2 ^ (d + 1) := by exact_mod_cast hmid
    have hfarther : WithinUlp (round true (q + 1) (((d + 1 : ℕ) : ℤ) - log2Places)) (-(Y / 2 ^ log2Places)) := by
      refine hround (q + 1) (d + 1) hq' le_rfl (abs_le.mpr ⟨?_, ?_⟩) <;> push_cast <;> linarith
    rcases hw with rfl | rfl | hnone
    · exact hfarther
    · exact hfarther
    · cases hnone

end Sys2Proof.Machine.F64

namespace Sys2Proof.Machine.F64

/-! ## `LOG2` between 0 and 1 -/

/-- The smallest positive value is the smallest subnormal. -/
theorem ulp_le_of_pos {x : Word} {r : ℚ} (hx : rat x = some r) (hr : 0 < r) : ulp ≤ r := by
  obtain ⟨-, rfl⟩ := rat_eq_some.mp hx
  have hpos : (0 : ℚ) < ulpsAt (key x) := pos_of_mul_pos_left hr ulp_pos.le
  have hone : (1 : ℚ) ≤ ulpsAt (key x) := by
    have : 0 < ulpsAt (key x) := by exact_mod_cast hpos
    exact_mod_cast this
  exact le_mul_of_one_le_left ulp_pos.le hone

/-- The largest value below 1 is `1 - 2^-53`. -/
theorem le_one_sub_of_lt_one {x : Word} {r : ℚ} (hx : rat x = some r) (h0 : 0 < r) (h1 : r < 1) :
    r ≤ 1 - 1 / 2 ^ 53 := by
  obtain ⟨m, e, -, hm, hm', rfl⟩ := unpack_of_pos hx h0
  have he : e < 0 := by
    by_contra hge
    have hpow : (1 : ℚ) ≤ 2 ^ e := one_le_zpow₀ one_le_two (by omega)
    have hm1 : (1 : ℚ) ≤ m := by exact_mod_cast Nat.one_le_iff_ne_zero.mpr hm
    nlinarith
  obtain ⟨j, hj⟩ := Int.eq_ofNat_of_zero_le (show 0 ≤ -e by omega)
  obtain rfl : e = -(j : ℤ) := by omega
  have hpow : (0 : ℚ) < 2 ^ j := by positivity
  rw [zpow_neg, zpow_natCast, ← div_eq_mul_inv] at h1 ⊢
  rw [div_lt_one hpow] at h1
  have hlt : m + 1 ≤ 2 ^ j := by exact_mod_cast h1
  have hltQ : (m : ℚ) + 1 ≤ 2 ^ j := by exact_mod_cast hlt
  rw [div_le_iff₀ hpow]
  rcases Nat.lt_or_ge 53 j with hsmall | hlarge
  · have hm53 : (m : ℚ) ≤ 2 ^ 53 := by exact_mod_cast hm'.le
    have : (2 : ℚ) ^ 54 ≤ 2 ^ j := pow_le_pow_right₀ one_le_two hsmall
    linarith
  · have : (2 : ℚ) ^ j ≤ 2 ^ 53 := pow_le_pow_right₀ one_le_two hlarge
    linarith

/-- The logarithm of a value between 0 and 1. -/
theorem logb_bounds {x : Word} {r : ℚ} (hx : rat x = some r) (h0 : 0 < r) (h1 : r < 1) :
    -1074 ≤ Real.logb 2 r ∧ Real.logb 2 r ≤ -(1 / 2 ^ 53) := by
  have hr : (0 : ℝ) < r := by exact_mod_cast h0
  constructor
  · rw [Real.le_logb_iff_rpow_le one_lt_two hr]
    have hulp : ((ulp : ℚ) : ℝ) ≤ r := by exact_mod_cast ulp_le_of_pos hx h0
    refine le_of_eq_of_le ?_ hulp
    rw [ulp, Rat.cast_zpow, Rat.cast_ofNat, ← Real.rpow_intCast]
    norm_num
  · have hle : (r : ℝ) ≤ 1 - 1 / 2 ^ 53 := by
      simpa using (Rat.cast_le (K := ℝ)).mpr (le_one_sub_of_lt_one hx h0 h1)
    have hlog : Real.log r ≤ -(1 / 2 ^ 53) := by linarith [Real.log_le_sub_one_of_pos hr]
    have hlog2 : Real.log 2 ≤ 1 := by linarith [Real.log_two_lt_d9]
    rw [Real.logb, div_le_iff₀ (Real.log_pos one_lt_two)]
    linarith

/-- The logarithm in units of the last digit that is kept has more than 53 digits, and not too many. -/
theorem scaled_logb_bounds {X : ℝ} (hlo : -1074 ≤ X) (hhi : X ≤ -(1 / 2 ^ 53)) :
    2 ^ 54 + 2 ≤ -X * 2 ^ log2Places ∧ -X * 2 ^ log2Places < 2 ^ 190 := by
  rw [log2Places]
  constructor <;> linarith

section
variable {x : Word} {r : ℚ} {m : ℕ} {e : ℤ} (hx : rat x = some r) (h0 : 0 < r) (h1 : r < 1)
  (hu : unpack x = .fin false m e) (hr : r = m * 2 ^ e)
include hx h0 h1 hr

/-- On a power of two the result is the logarithm itself (R146, P2). -/
theorem log2_withinUlp_of_power {t : ℕ} (hm : m = 2 ^ t) (hexp : e + t < 0) :
    WithinUlp (log2 x) (Real.logb 2 r) := by
  have hrk : r = 2 ^ (e + t) := by
    rw [hr, hm, zpow_add₀ two_ne_zero, mul_comm]
    norm_num
  have hlog : Real.logb 2 r = ((e + t : ℤ) : ℝ) := by
    rw [hrk, Rat.cast_zpow, Rat.cast_ofNat, ← Real.rpow_intCast, Real.logb_rpow two_pos (by norm_num)]
  have hsmall : -1074 ≤ e + t := by
    have hlo := (logb_bounds hx h0 h1).1
    rw [hlog] at hlo
    exact_mod_cast hlo
  refine ⟨((e + t : ℤ) : ℚ), ?_, ?_⟩
  · rw [log2_two_zpow (hrk ▸ hx) hexp.le, rat_i2f (by omega)]
  · rw [hlog, Rat.cast_intCast, sub_self, abs_zero]
    positivity

include hu

/-- Elsewhere it is one of the candidates (R146, P3). -/
theorem log2_withinUlp_of_not_power (hm : m ≠ 0) (hm' : m < 2 ^ 53) (hpower : m ≠ 2 ^ (bitLength m - 1))
    (hexp : e + (bitLength m - 1 : ℕ) < 0) : WithinUlp (log2 x) (Real.logb 2 r) := by
  obtain ⟨hlo, hhi⟩ := logb_bounds hx h0 h1
  obtain ⟨hlarge, hsmall⟩ := scaled_logb_bounds hlo hhi
  obtain ⟨hylo, hyhi⟩ := negLog2Floor_bounds hm hm' hexp
  have hadmits := log2_admitted hu hm hpower hexp rfl
  have hrR : (m : ℝ) * 2 ^ e = r := by rw [hr]; push_cast; rfl
  have hX : Real.logb 2 r = -(-Real.logb 2 r * 2 ^ log2Places / 2 ^ log2Places) := by
    rw [mul_div_cancel_right₀ _ (by positivity), neg_neg]
  rw [hrR] at hylo hyhi
  rw [hX]
  generalize -Real.logb 2 r * 2 ^ log2Places = Y at *
  generalize negLog2Floor m e = y at *
  obtain ⟨u, rfl⟩ : ∃ u, y = u + 1 := Nat.exists_eq_add_one_of_ne_zero fun h => by
    rw [h, Nat.cast_zero] at hyhi
    linarith
  rw [Nat.cast_add_one] at hylo hyhi
  have huR : (2 : ℝ) ^ 53 ≤ u ∧ (u : ℝ) < 2 ^ 190 := ⟨by linarith, by linarith⟩
  exact hadmits.withinUlp (by exact_mod_cast huR.1) (by exact_mod_cast huR.2) (by linarith) (by linarith)

end

/-- `LOG2` between 0 and 1 is within one unit in the last place (R146, P2 and P3). -/
theorem log2_withinUlp {x : Word} {r : ℚ} (hx : rat x = some r) (h0 : 0 < r) (h1 : r < 1) :
    WithinUlp (log2 x) (Real.logb 2 r) := by
  obtain ⟨m, e, hu, hm, hm', hr⟩ := unpack_of_pos hx h0
  have hexp : e + (bitLength m - 1 : ℕ) < 0 := by
    rw [← zpow_lt_one_iff_right₀ (one_lt_two (α := ℚ)), zpow_add₀ two_ne_zero, zpow_natCast, mul_comm]
    refine lt_of_le_of_lt (mul_le_mul_of_nonneg_right ?_ (by positivity)) (hr ▸ h1)
    exact_mod_cast (bitLength_bounds hm).1
  by_cases hpower : m = 2 ^ (bitLength m - 1)
  · exact log2_withinUlp_of_power hx h0 h1 hr hpower hexp
  · exact log2_withinUlp_of_not_power hx h0 h1 hu hr hm hm' hpower hexp

/-- Settles O48: `negLog2Floor` is within a unit of its last digit, and each candidate for it within a unit in the last
place. -/
theorem log2IsWithinOneUnit : Obligations.Log2IsWithinOneUnit := fun _ _ hx h0 h1 => log2_withinUlp hx h0 h1

/-- A pattern within a unit of a negative real is negative and finite: the unit is less than the real. -/
theorem WithinUlp.neg {w : Word} {X : ℝ} (h : WithinUlp w X) (hX : X < 0) :
    ∃ l : ℚ, rat w = some l ∧ l < 0 := by
  obtain ⟨l, hl, hdist⟩ := h
  have hunit : (2 : ℝ) ^ (Int.log 2 |X| - 52) < |X| := by
    refine lt_of_lt_of_le ?_ (Int.zpow_log_le_self one_lt_two (abs_pos.mpr hX.ne))
    exact zpow_lt_zpow_right₀ (by norm_num) (by omega)
  rw [abs_of_neg hX] at hunit
  have hneg : (l : ℝ) < 0 := by linarith [le_abs_self ((l : ℝ) - X), abs_of_neg hX ▸ hdist]
  exact ⟨l, hl, by exact_mod_cast hneg⟩

theorem rat_plusZero : rat 0 = some 0 := by decide +kernel

/-- A pattern between the patterns of 0 and 1 is a value between them. -/
theorem rat_of_between {x : Word} (h0 : lt 0 x = true) (h1 : lt x 0x3FF0000000000000 = true) :
    ∃ r, rat x = some r ∧ 0 < r ∧ r < 1 := by
  have hone : rat 0x3FF0000000000000 = some 1 := by decide +kernel
  have hkey : 0 < key x ∧ key x < 0x3FF0000000000000 := by
    simp only [lt, Bool.and_eq_true, decide_eq_true_eq] at h0 h1
    exact ⟨h0.2, h1.2⟩
  have hx : rat x = some (ulpsAt (key x) * ulp) := by
    have hmag := natAbs_key x
    exact rat_eq_some.mpr ⟨by rw [infMag]; omega, rfl⟩
  exact ⟨_, hx, (comparisons_finite rat_plusZero hx).1.mp h0, (comparisons_finite hx hone).1.mp h1⟩

/-- Settles O47: within a unit in the last place of its negative logarithm, `LOG2` is negative and finite. -/
theorem log2IsNegativeAndFinite : Obligations.Log2IsNegativeAndFinite := by
  intro x h0 h1
  obtain ⟨r, hx, hr0, hr1⟩ := rat_of_between h0 h1
  have hlog := (logb_bounds hx hr0 hr1).2
  obtain ⟨l, hl, hneg⟩ := (log2_withinUlp hx hr0 hr1).neg (hlog.trans_lt (by norm_num))
  exact ⟨(comparisons_finite hl rat_plusZero).1.mpr hneg, (comparisonsAreByValue.2.2.2 _ _ hl).2.1⟩

end Sys2Proof.Machine.F64

namespace Sys2Proof.Machine

/-! ## The mute sentinel -/

theorem not_inRange_of_muted {vol : Word} (h : muted vol = true) : inRange vol = false := by
  cases hr : inRange vol with
  | false => rfl
  | true => exact absurd h (by simp [muted_of_inRange hr])

/-- Settles O42: the sentinel is out of the range, so every curve falls back to `min_db`, and it is muted, so the fallback
asks for no diagnostic. -/
theorem muteSentinelIsSilent : Obligations.MuteSentinelIsSilent := by
  intro k s hs hvol
  have hmuted : muted s.me.vol = true := (muted_iff _).mpr hvol
  have hcurve : curve k s.me.vol s.me.maxInt s.me.minInt = .value (F64.i2f s.me.minInt) false := by
    rw [curve_of_not_inRange k (not_inRange_of_muted hmuted), fallback, outOfRange, hmuted]
    simp
  exact exec_vc_value hs hcurve

end Sys2Proof.Machine

namespace Sys2Proof.Machine

/-! ## What a step that ends in a halted block leaves alone -/

/-- The generator but for its lock, the diagnostic registers, and every register and sequencer of every port are the same
(R11, R12, R14, R28 to R31). -/
def State.SameRegisters (s t : State) : Prop :=
  t.dither = s.dither ∧ t.seeded = s.seeded ∧ s.SameDiagnostics t ∧ t.ports.length = s.ports.length ∧
    ∀ p, { t.port p with prog := [] } = { s.port p with prog := [] }

namespace State.SameRegisters

theorem refl (s : State) : s.SameRegisters s := ⟨rfl, rfl, ⟨rfl, rfl, rfl⟩, rfl, fun _ => rfl⟩

theorem trans {s t u : State} (h : s.SameRegisters t) (h' : t.SameRegisters u) : s.SameRegisters u := by
  obtain ⟨hdither, hseeded, ⟨hcnt, hvol, hsrc⟩, hlen, hport⟩ := h
  obtain ⟨hdither', hseeded', ⟨hcnt', hvol', hsrc'⟩, hlen', hport'⟩ := h'
  exact ⟨hdither'.trans hdither, hseeded'.trans hseeded,
    ⟨hcnt'.trans hcnt, hvol'.trans hvol, hsrc'.trans hsrc⟩, hlen'.trans hlen,
    fun p => (hport' p).trans (hport p)⟩

theorem withProg (s : State) (p : Nat) (l : List HostAction) : s.SameRegisters (s.withProg p l) :=
  ⟨rfl, rfl, ⟨rfl, rfl, rfl⟩, (State.SameBlock.withProg s p l).length, (State.SameBlock.withProg s p l).port⟩

theorem raiseFatal (c : FatalCode) (info : Word) (s : State) : s.SameRegisters (raiseFatal c info s) := by
  rcases raiseFatal_cases c info s with ⟨-, e⟩ | ⟨-, e⟩ <;> rw [e] <;> exact refl s

end State.SameRegisters

/-- A step of a command that ends in a halted block is a fault and nothing else, but for the lock that an acquire step has
taken (R98, R172). A fault of a block already halted changes nothing (R173). -/
theorem exec_eq_raiseFatal {i : Instr} {s t : State} (h : exec i s = .next t) (ht : t.halted = true) :
    ∃ c info k, (k = s.lock ∨ s.lock = .free ∧ k = .held s.active) ∧ t = raiseFatal c info { s with lock := k } := by
  by_cases hne : t.fault = s.fault
  · have hs : s.halted = true := by rwa [State.halted, ← hne]
    rw [exec_dead i (by simp [State.live, hs])] at h
    cases h
    refine ⟨.illegalCmd, 0, s.lock, .inl rfl, ?_⟩
    rw [raiseFatal, if_pos ht]
  · -- A step of a port in `RUN` keeps `FAULT`, which closes the cases of the run steps.
    have hphase := (exec_step h).fault_cases.resolve_left hne
    cases exec_step h with
    | rejects _ info => exact ⟨_, info, s.lock, .inl rfl, rfl⟩
    | acquires _ load =>
      rcases acquire_cases i load s with ⟨-, e⟩ | ⟨hfree, -, -, e⟩ | ⟨-, -, e⟩
      · exact absurd (congrArg State.fault e) hne
      · exact ⟨_, _, _, .inr ⟨hfree, rfl⟩, e⟩
      · exact absurd (congrArg State.fault e) hne
    | stays => exact absurd rfl hne
    | accepts => exact absurd rfl hne
    | acceptsStream => exact absurd rfl hne
    | returnsToken => exact absurd rfl hne
    | _ => simp_all

theorem exec_sameRegisters {i : Instr} {s t : State} (h : exec i s = .next t) (ht : t.halted = true) :
    s.SameRegisters t := by
  obtain ⟨c, info, k, -, rfl⟩ := exec_eq_raiseFatal h ht
  exact State.SameRegisters.raiseFatal c info { s with lock := k }

/-- A register write that ends in a halted block changes no register (R172, R173). -/
theorem hostWrite_sameRegisters {p : Nat} {k : Slot} {v : Word} {s t : State} (h : hostWrite p k v s = .next t)
    (ht : t.halted = true) : s.SameRegisters t := by
  rcases hostWrite_cases p k v s with
    ⟨-, e⟩ | ⟨-, -, e⟩ | ⟨-, -, -, -, e⟩ | ⟨i, -, -, -, -, e⟩ | ⟨hs, -, -, e⟩ <;> rw [e] at h
  · cases h; exact .refl s
  · cases h; exact .raiseFatal _ _ (s.actingAs p)
  · cases h; exact .raiseFatal _ _ (s.actingAs p)
  · exact exec_sameRegisters (s := s.actingAs p) h ht
  · cases h
    exact absurd (hs.symm.trans ht) Bool.false_ne_true

/-- A host's action that ends in a halted block changes no register. -/
theorem hostAct_sameRegisters {p : Nat} {s t : State} (h : hostAct p s = .next t) (ht : t.halted = true) :
    s.SameRegisters t := by
  rcases hostAct_cases p s with ⟨-, e⟩ | ⟨k, v, rest, -, e⟩ | ⟨k, rest, -, e⟩ | ⟨rest, -, e⟩ | ⟨a, b, rest, -, e⟩ <;>
    rw [e] at h
  · cases h; exact .refl s
  · exact (State.SameRegisters.withProg s p rest).trans (hostWrite_sameRegisters h ht)
  · cases h; exact State.SameRegisters.withProg s p rest
  · cases h
    split
    · exact .refl s
    · exact .withProg s p rest
  · rcases hostStore_cases a b (s.withProg p rest) with ⟨-, e'⟩ | ⟨-, e'⟩ <;> (rw [e'] at h; cases h)
    exact State.SameRegisters.withProg s p rest

/-- An agent's step that ends in a halted block changes no register. -/
theorem agentAct_sameRegisters {g : Agent} {s t : State} (h : agentAct g s = .next t) (ht : t.halted = true) :
    s.SameRegisters t := by
  rcases agentAct_cases g s with ⟨e, -⟩ | ⟨e, -, -⟩ <;> rw [e] at h
  · cases g with
    | host p => exact hostAct_sameRegisters h ht
    | sequencer p =>
      rcases sequencerAct_cases p s with ⟨e, -⟩ | ⟨i, -, -, e⟩ <;> rw [agentMove, e] at h
      · cases h; exact .refl s
      · exact exec_sameRegisters (s := s.actingAs p) h ht
  · cases h; exact .refl s

theorem step_sameRegisters {s t : State} (h : step s = .next t) (ht : t.halted = true) : s.SameRegisters t := by
  rcases step_cases s with ⟨g, rest, -, e⟩ | ⟨-, -, e⟩ | ⟨g, -, n, -, e⟩ <;> rw [e] at h
  · exact agentAct_sameRegisters (s := { s with sched := rest }) h ht
  · cases h; exact .refl s
  · exact agentAct_sameRegisters (s := { s with choices := n }) h ht

/-! ## The step that raises a fault -/

/-- A host's action that raises a fault writes no memory: a store raises none (R172). -/
theorem hostAct_mem_of_raises {p : Nat} {s t : State} (h : hostAct p s = .next t) (hs : s.halted = false)
    (ht : t.halted = true) : t.mem = s.mem := by
  rcases hostAct_cases p s with ⟨-, e⟩ | ⟨k, v, rest, -, e⟩ | ⟨k, rest, -, e⟩ | ⟨rest, -, e⟩ | ⟨a, b, rest, -, e⟩ <;>
    rw [e] at h
  · cases h; rfl
  · exact hostWrite_mem (s := s.withProg p rest) h
  · cases h; rfl
  · cases h; split <;> rfl
  · rcases hostStore_cases a b (s.withProg p rest) with ⟨-, e'⟩ | ⟨-, e'⟩ <;> (rw [e'] at h; cases h)
    exact absurd (hs.symm.trans ht) Bool.false_ne_true

/-- A sequencer's step that ends in a halted block writes no memory, and takes at most the free lock (R98, R172). -/
theorem sequencerAct_of_halted {p : Nat} {s t : State} (h : sequencerAct p s = .next t) (ht : t.halted = true) :
    t.mem = s.mem ∧ (t.lock = s.lock ∨ s.lock = .free ∧ t.lock = .held p) := by
  rcases sequencerAct_cases p s with ⟨e, -⟩ | ⟨i, -, -, e⟩ <;> rw [e] at h
  · cases h; exact ⟨rfl, .inl rfl⟩
  · obtain ⟨c, info, k, hk, rfl⟩ := exec_eq_raiseFatal h ht
    rw [raiseFatal_mem, raiseFatal_lock]
    exact ⟨rfl, hk⟩

/-- A step that raises a fault writes no memory, and takes the lock only where it is an acquire step (R172). -/
theorem agentMove_of_raises {g : Agent} {s t : State} (h : agentMove g s = .next t) (hs : s.halted = false)
    (ht : t.halted = true) :
    t.mem = s.mem ∧ (t.lock = s.lock ∨ ∃ p, g = .sequencer p ∧ s.lock = .free ∧ t.lock = .held p) := by
  cases g with
  | host p => exact ⟨hostAct_mem_of_raises h hs ht, .inl (hostAct_generator h).2⟩
  | sequencer p =>
    obtain ⟨hmem, hlock⟩ := sequencerAct_of_halted h ht
    exact ⟨hmem, hlock.imp_right fun hk => ⟨p, rfl, hk⟩⟩

/-! ## The halted block -/

/-- No register of a halted block moves, whatever agent takes a step (R173). -/
theorem AgentStep.sameBlock_of_halted {s t : State} (h : AgentStep s t) (hs : s.halted = true) : s.SameBlock t := by
  cases h with
  | same h => exact h
  | raises u h hp hh => exact absurd (hh.symm.trans (h.halted.trans hs)) Bool.false_ne_true
  | writes u h hu =>
    exact absurd ((State.not_halted_of_live hu.1).symm.trans (h.halted.trans hs)) Bool.false_ne_true
  | runs u h i hop ht =>
    rw [exec_dead i (by simp [State.live, h.halted, hs])] at ht
    cases ht
    exact h

/-- Settles O54: a step that ends in a halted block is a fault and nothing else, an action of a host that writes none of
the block's registers, or nothing; a sequencer writes memory only in a block that is not halted. -/
theorem haltedBlockIsFrozen : Obligations.HaltedBlockIsFrozen := by
  constructor
  · intro s t g h hs ht
    have hwhole := agentAct_keeps_samples_whole h hs ht
    obtain ⟨hdither, hseeded, hdiag, hlen, hport⟩ := agentAct_sameRegisters h ht
    obtain ⟨hmem, hlock⟩ := agentMove_of_raises (agentAct_of_not_midSample hwhole ▸ h) hs ht
    exact ⟨hwhole, hmem, hdither, hseeded, hdiag, hlock, hlen, hport⟩
  · intro s t hs h
    have hblock := (step_agentStep h).sameBlock_of_halted hs
    obtain ⟨hdither, hseeded, hdiag, hlen, hport⟩ := step_sameRegisters h (hblock.halted.trans hs)
    refine ⟨⟨hdither, hseeded, hblock.lock⟩, hblock.fault, hblock.finfo, hdiag, hblock.cfg, hlen, hport, ?_⟩
    rcases stepWritesAtMostOneByte s t h with hmem | ⟨p, a, b, rest, hlive, -⟩ | hstore
    · exact .inl hmem
    · exact absurd (hlive.symm.trans hs) Bool.false_ne_true
    · exact .inr hstore

end Sys2Proof.Machine

namespace Sys2Proof.Machine

/-! ## The port that holds the lock -/

/-- A step of a command is taken and moves its port, or its write is stuck (R49, R186). -/
def MovesOrStuck (s : State) (o : Outcome State) : Prop :=
  (∃ t, o = .next t ∧ t.me ≠ s.me) ∨ ∃ a, o = .fault (.stuck a)

/-- The completing step moves its port out of `RUN` (R96, R105). -/
theorem completeLocked_moves {s u : State} (hs : s.Running) (ha : s.SameAround u) : (completeLocked u).me ≠ s.me := by
  intro e
  have hp : u.active < u.ports.length := by rw [ha.active, ha.length]; exact State.active_lt_of_live hs.1
  have hidle : (completeLocked u).me.seq.phase = .idle := by rw [me_completeLocked hp]; rfl
  rw [e, hs.2] at hidle
  cases hidle

/-- A further byte write of a sample leaves one less to be performed (R106). -/
theorem endSample_writeNextByte_moves (row : Row) {s : State} (hs : s.Running) (hout : s.me.seq.out ≠ []) :
    (endSample row (writeNextByte s)).me ≠ s.me := by
  intro e
  obtain ⟨w, rest, hw⟩ := List.exists_cons_of_ne_nil hout
  have hp := State.active_lt_of_live hs.1
  have hrest := ((writeNextByte_writes hp hw).endSample row hp).out
  rw [e, hw] at hrest
  exact List.cons_ne_self w rest hrest

/-- The release after a sample moves its port back to `WAITLOCK` (R137). -/
theorem releaseSample_moves {s : State} (hs : s.Running) : (releaseSample s).me ≠ s.me := by
  intro e
  have hwait : (releaseSample s).me.seq.phase = .waitLock := by
    rw [show (releaseSample s).me = _ from State.me_setMe s _ (State.active_lt_of_live hs.1)]
    rfl
  rw [e, hs.2] at hwait
  cases hwait

/-- The step that begins a sample leaves byte writes to be performed, or, where the sample is one byte, moves `SIDX` past it
(R106). -/
theorem synBegin_moves {f : Format} {dth : Bool} {row : Row} {s u : State} (hrow : describe f = some row)
    (hs : s.Running) (hout : s.me.seq.out = [])
    (hu : memWrite s.me.seq.cur (synBytes row dth s) (beginSample s) = .next u) : (endSample row u).me ≠ s.me := by
  intro e
  have hp := State.active_lt_of_live hs.1
  have hp' : (beginSample s).active < (beginSample s).ports.length := by simpa [beginSample] using hp
  have hbegin : (beginSample s).me = s.me.withSent (s.cfg.lockGrain == .sample) :=
    (me_withGenerator _ _ _).trans (State.me_setMe s _ hp)
  have hlen : (synBytes row dth s).length = row.byteWidth := length_pack s.cfg hrow _
  obtain ⟨b, bytes, hbytes⟩ : ∃ b bytes, synBytes row dth s = b :: bytes :=
    List.exists_cons_of_length_pos (hlen ▸ byteWidth_pos hrow)
  have hsidx : u.me.seq.sidx = s.me.seq.sidx := by
    rw [me_memWrite hp' (hbytes ▸ hu), hbegin]
    rfl
  rcases endSample_cases row u with ⟨-, he⟩ | ⟨hleft, he⟩
  · have ha := State.SameAround.memWrite hu
    have hnext : (endSample row u).me.seq.sidx = s.me.seq.sidx + 1 := by
      rw [he, State.me_setMe u _ (by rw [ha.active, ha.length]; exact hp'), Port.pastSample_seq_sidx, hsidx]
    rw [e] at hnext
    bv_omega
  · rw [← he, e] at hleft
    exact hleft hout

/-- A SYN in `RUN` moves, or is stuck: the invariant leaves no `SIDX` beyond `2 * NFR` (R105, R186). -/
theorem synRun_movesOrStuck {f : Format} {dth : Bool} {row : Row} {s : State} (hrow : describe f = some row)
    (hs : s.Running) (hsyn : s.me.SynInv s.cfg row) : MovesOrStuck s (synRun row dth s) := by
  rcases synRun_cases row dth s with ⟨hout, e⟩ | ⟨-, -, e⟩ | ⟨hout, -, -, e⟩ | ⟨-, -, -, e⟩ | ⟨-, -, hpast, -⟩
  · exact .inl ⟨_, e, endSample_writeNextByte_moves row hs hout⟩
  · exact .inl ⟨_, e, releaseSample_moves hs⟩
  · rcases memWrite_cases s.me.seq.cur (synBytes row dth s) (beginSample s) with ⟨a, -, hu⟩ | ⟨-, hu⟩
    · exact .inr ⟨a, by rw [e, hu]; rfl⟩
    · exact .inl ⟨_, by rw [e, hu]; rfl, synBegin_moves hrow hs hout hu⟩
  · exact .inl ⟨_, e, completeLocked_moves hs (.synTokens s)⟩
  · exact absurd hpast (Nat.not_lt.mpr hsyn.made)

/-- A command that runs under the lock moves, or is stuck (R186). -/
theorem exec_movesOrStuck {i : Instr} {s : State} (hok : portOk s.cfg s.me = true) (hs : s.Running)
    (hop : s.me.seq.op = some i) (htakes : i.takesLock = true) : MovesOrStuck s (exec i s) := by
  rcases i.family_cases with rfl | rfl | ⟨f, dth, rfl⟩ | ⟨k, rfl⟩ | ⟨f, rfl⟩ | ⟨f, rfl⟩
  · exact .inl ⟨_, lockedCommand_running hs .init seedGenerator, completeLocked_moves hs (.seedGenerator s)⟩
  · exact .inl ⟨_, lockedCommand_running hs .draw drawToRes, completeLocked_moves hs (.drawToRes s)⟩
  · obtain ⟨row, hrow⟩ := exists_row_of_run hok hs.2 hop (.inl (Instr.isSyn_syn f dth))
    rw [Instr.format_syn] at hrow
    rw [exec_syn_running dth hrow hs]
    exact synRun_movesOrStuck hrow hs ((portOk_syn hs.2 hop hrow).mp hok).2
  · simp at htakes
  · simp at htakes
  · simp at htakes

/-- A port that runs under the lock is in `RUN`, with a command that takes the lock. -/
theorem exists_op_of_runsLocked {q : Port} (h : q.runsLocked = true) :
    q.seq.phase = .run ∧ ∃ i, q.seq.op = some i ∧ i.takesLock = true := by
  rw [Port.runsLocked, Bool.and_eq_true, beq_iff_eq] at h
  obtain ⟨hp, htakes⟩ := h
  refine ⟨hp, ?_⟩
  cases ho : q.seq.op with
  | none => simp [ho] at htakes
  | some i => exact ⟨i, rfl, by simpa [ho] using htakes⟩

/-- Settles O59: by the invariant the holder runs a command that takes the lock, no step of which waits for anything. -/
theorem lockHolderCanMove : Obligations.LockHolderCanMove := by
  intro s p hinv hlive hheld
  obtain ⟨-, hports, -⟩ := inv_iff.mp hinv
  obtain ⟨hlt, hruns⟩ := (hports p).held hheld
  obtain ⟨hrun, i, hop, htakes⟩ := exists_op_of_runsLocked (hruns.resolve_right (by simp [hlive]))
  have hbusy : s.busy p = true := by simp [State.busy, hrun]
  have hstep : agentAct (.sequencer p) s = exec i (s.actingAs p) :=
    (agentAct_of_raises_false (raises_sequencer_eq_false hbusy hop (.inr hrun))).trans (agentMove_sequencer hbusy hop)
  rw [hstep]
  rcases exec_movesOrStuck (s := s.actingAs p) (hports p).ok ⟨by simp [State.live, hlive, hlt], hrun⟩ hop htakes with
    ⟨t, ht, hmoves⟩ | hstuck
  · refine .inl ⟨t, ht, ?_⟩
    have hactive : t.active = p := (exec_step ht).sameAround.active
    rwa [State.me, hactive] at hmoves
  · exact .inr hstuck

/-- A seeded block whose port runs a `SYN.S8` of one frame under the lock, on a platform that admits no address. -/
def stuckHolder : State :=
  { State.reset with
    seeded := true, lock := .held 0, platform := []
    ports := [{ Port.reset with
      nfr := 1, cmd := commandValue (.synS8 false)
      seq := { Seq.reset with phase := .run, op := some (.synS8 false) } }] }

/-- The holder of the lock can be stuck: the second half of O59 is met too (R186). -/
theorem stuckHolder_is_stuck : stuckHolder.Inv ∧ stuckHolder.halted = false ∧ stuckHolder.lock = .held 0 ∧
    agentAct (.sequencer 0) stuckHolder = .fault (.stuck 0) :=
  ⟨by decide, by decide, rfl, rfl⟩

end Sys2Proof.Machine

namespace Sys2Proof.Machine

/-! ## What no step reads

No step of a command reads the schedule, and none before the first INIT reads DitherState. So a change of the two goes
through each operation of a step: `op (s.unread d σ) = (op s).unread d σ`. -/

/-- The state as it would stand with another schedule and, before the first INIT, with another DitherState (R196). -/
def State.unread (s : State) (d : Dither) (σ : List Agent → List Agent) : State :=
  { s with dither := if s.seeded then s.dither else d, sched := σ s.sched }

section
variable (s : State) (d : Dither) (σ : List Agent → List Agent)

@[simp] theorem unread_me : (s.unread d σ).me = s.me := rfl
@[simp] theorem unread_port (p : Nat) : (s.unread d σ).port p = s.port p := rfl
@[simp] theorem unread_busy (p : Nat) : (s.unread d σ).busy p = s.busy p := rfl
@[simp] theorem unread_lock : (s.unread d σ).lock = s.lock := rfl
@[simp] theorem unread_seeded : (s.unread d σ).seeded = s.seeded := rfl
@[simp] theorem unread_halted : (s.unread d σ).halted = s.halted := rfl
@[simp] theorem unread_cfg : (s.unread d σ).cfg = s.cfg := rfl
@[simp] theorem unread_platform : (s.unread d σ).platform = s.platform := rfl

variable {s} in
/-- A generator that is seeded is kept. -/
theorem unread_dither_of_seeded (h : s.seeded = true) : (s.unread d σ).dither = s.dither := if_pos h

variable {s} in
/-- One that is not seeded is replaced. -/
theorem unread_of_unseeded (h : s.seeded = false) : s.unread d σ = { s with dither := d, sched := σ s.sched } := by
  rw [State.unread, h]
  rfl

/-! The updates of the steps that draw nothing. -/

theorem accept_unread (i : Instr) : accept i (s.unread d σ) = (accept i s).unread d σ := rfl

theorem complete_unread : complete (s.unread d σ) = (complete s).unread d σ := rfl

theorem completeLocked_unread : completeLocked (s.unread d σ) = (completeLocked s).unread d σ := rfl

theorem setMe_unread (q : Port) : (s.unread d σ).setMe q = (s.setMe q).unread d σ := rfl

theorem releaseSample_unread : releaseSample (s.unread d σ) = (releaseSample s).unread d σ := rfl

theorem synTokens_unread : synTokens (s.unread d σ) = (synTokens s).unread d σ := rfl

theorem raiseFatal_unread (c : FatalCode) (info : Word) :
    raiseFatal c info (s.unread d σ) = (raiseFatal c info s).unread d σ := by
  rcases raiseFatal_cases c info s with ⟨h, e⟩ | ⟨h, e⟩ <;> rw [e, raiseFatal, unread_halted, h] <;> rfl

theorem acquire_unread (i : Instr) (load : Port → Port) :
    acquire i load (s.unread d σ) = (acquire i load s).unread d σ := by
  rcases acquire_cases i load s with ⟨⟨p, hheld⟩, e⟩ | ⟨hfree, hseed, hne, e⟩ | ⟨hfree, hseed, e⟩ <;> rw [e]
  · exact acquire_of_held (s := s.unread d σ) hheld i load
  · rcases acquire_cases i load (s.unread d σ) with ⟨⟨p, hheld⟩, -⟩ | ⟨-, -, -, e'⟩ | ⟨-, hseed', -⟩
    · simp [hfree] at hheld
    · rw [e']
      exact raiseFatal_unread { s with lock := .held s.active } d σ _ _
    · simp [hseed, hne] at hseed'
  · exact acquire_of_free (s := s.unread d σ) hfree hseed load

theorem writeNextByte_unread : writeNextByte (s.unread d σ) = (writeNextByte s).unread d σ := by
  cases hout : s.me.seq.out with
  | nil => simp only [writeNextByte, unread_me, hout]
  | cons w rest => simp only [writeNextByte, unread_me, hout]; rfl

theorem memWrite_unread (addr : Word) (bytes : List Byte) :
    memWrite addr bytes (s.unread d σ) = thenNext (·.unread d σ) (memWrite addr bytes s) := by
  simp only [memWrite, unread_platform, unread_me, setMe_unread, writeNextByte_unread]
  split <;> rfl

theorem volumeRun_unread (k : Curve) (r : CurveResult) :
    volumeRun k r (s.unread d σ) = (volumeRun k r s).unread d σ := by
  rcases r with ⟨res, _ | _⟩ | i
  · rfl
  · rfl
  · exact raiseFatal_unread s d σ _ _

theorem encRun_unread (row : Row) : encRun row (s.unread d σ) = thenNext (·.unread d σ) (encRun row s) := by
  simp only [encRun, unread_me, unread_cfg, writeNextByte_unread, setMe_unread, complete_unread, memWrite_unread]
  split
  · rfl
  · split <;> rfl

/-- What a first INIT has put into the generator stands (R96). -/
theorem withGenerator_unread (x : Dither) :
    (s.unread d σ).withGenerator x true = (s.withGenerator x true).unread d σ := rfl

/-- INIT replaces the DitherState, whatever it was (R92, R96). -/
theorem seedGenerator_unread : seedGenerator (s.unread d σ) = (seedGenerator s).unread d σ :=
  withGenerator_unread s d σ (Dither.init s.me.seed)

/-! The steps that draw, once the generator is seeded. -/

section
variable {s} (hseed : s.seeded = true)
include hseed

/-- Of a seeded block only the schedule changes. -/
theorem unread_of_seeded : s.unread d σ = { s with sched := σ s.sched } := by
  rw [State.unread, if_pos hseed]

theorem drawToRes_unread : drawToRes (s.unread d σ) = (drawToRes s).unread d σ := by
  rw [unread_of_seeded d σ hseed, unread_of_seeded d σ ((drawToRes_seeded s).trans hseed)]
  rfl

theorem beginSample_unread : beginSample (s.unread d σ) = (beginSample s).unread d σ := by
  rw [unread_of_seeded d σ hseed, unread_of_seeded (s := beginSample s) d σ hseed]
  rfl

theorem endSample_unread (row : Row) : endSample row (s.unread d σ) = (endSample row s).unread d σ := by
  simp only [endSample, unread_me, unread_dither_of_seeded d σ hseed, setMe_unread]
  split <;> rfl

theorem synBytes_unread (row : Row) (dth : Bool) : synBytes row dth (s.unread d σ) = synBytes row dth s := by
  simp only [synBytes, unread_cfg, unread_me, unread_dither_of_seeded d σ hseed]

theorem synRun_unread (row : Row) (dth : Bool) :
    synRun row dth (s.unread d σ) = thenNext (·.unread d σ) (synRun row dth s) := by
  simp only [synRun, unread_me, synBytes_unread d σ hseed, beginSample_unread d σ hseed, writeNextByte_unread,
    memWrite_unread, releaseSample_unread, synTokens_unread, completeLocked_unread]
  split
  · rw [endSample_unread d σ ((writeNextByte_seeded s).trans hseed)]
    rfl
  split
  · rfl
  split
  · cases hu : memWrite s.me.seq.cur (synBytes row dth s) (beginSample s) with
    | next u => exact congrArg _ (endSample_unread d σ ((memWrite_shared hu).1.trans hseed) row)
    | fault r => rfl
    | refused r => rfl
  by_cases hdone : s.me.seq.sidx.toNat = s.me.samples
  · rw [if_pos hdone]
    exact if_pos hdone
  · rw [if_neg hdone]
    exact if_neg hdone

end

end

/-- The change goes through a command's step where it goes through the step of each phase. -/
theorem byPhase_unread {s : State} {d : Dither} {σ : List Agent → List Agent} {a w r : State → Outcome State}
    (ha : s.Idle → a (s.unread d σ) = thenNext (·.unread d σ) (a s))
    (hw : s.Waiting → w (s.unread d σ) = thenNext (·.unread d σ) (w s))
    (hr : s.Running → r (s.unread d σ) = thenNext (·.unread d σ) (r s)) :
    byPhase (s.unread d σ) a w r = thenNext (·.unread d σ) (byPhase s a w r) := by
  rcases byPhase_cases s a w r with ⟨hl, e⟩ | ⟨hl, hp, e⟩ | ⟨hl, hp, e⟩ | ⟨hl, hp, e⟩ <;> rw [e]
  · exact byPhase_dead (s := s.unread d σ) hl a w r
  · exact (byPhase_idle (s := s.unread d σ) hl hp a w r).trans (ha ⟨hl, hp⟩)
  · exact (byPhase_waitLock (s := s.unread d σ) hl hp a w r).trans (hw ⟨hl, hp⟩)
  · exact (byPhase_run (s := s.unread d σ) hl hp a w r).trans (hr ⟨hl, hp⟩)

section
variable {s : State} (d : Dither) (σ : List Agent → List Agent)

theorem lockedCommand_unread {i : Instr} {effect : State → State}
    (hrun : s.Running → effect (s.unread d σ) = (effect s).unread d σ) :
    lockedCommand i effect (s.unread d σ) = thenNext (·.unread d σ) (lockedCommand i effect s) := by
  refine byPhase_unread (fun _ => rfl) (fun _ => ?_) fun hs => ?_
  · rw [acquire_unread]; rfl
  · rw [hrun hs, completeLocked_unread]; rfl

theorem plainCommand_unread {i : Instr} {onRun : State → Outcome State}
    (hrun : onRun (s.unread d σ) = thenNext (·.unread d σ) (onRun s)) :
    plainCommand (fun s => .next (accept i s)) onRun (s.unread d σ) =
      thenNext (·.unread d σ) (plainCommand (fun s => .next (accept i s)) onRun s) :=
  byPhase_unread (fun _ => rfl) (fun _ => rfl) fun _ => hrun

theorem rejectSentinel_unread (f : Format) :
    rejectSentinel f (s.unread d σ) = thenNext (·.unread d σ) (rejectSentinel f s) :=
  byPhase_unread (fun _ => congrArg _ (raiseFatal_unread s d σ _ _)) (fun _ => rfl) fun _ => rfl

theorem synAccept_unread (i : Instr) (row : Row) :
    synAccept i row (s.unread d σ) = thenNext (·.unread d σ) (synAccept i row s) := by
  rcases synAccept_cases i row s with ⟨hno, e⟩ | ⟨hfits, hgrain, e⟩ | ⟨hfits, hgrain, e⟩ <;> rw [e]
  · simp [synAccept, hno]; rfl
  · exact synAccept_call (s := s.unread d σ) hfits hgrain
  · exact synAccept_sample (s := s.unread d σ) hfits hgrain

theorem synWait_unread (i : Instr) :
    synWait i (s.unread d σ) = thenNext (·.unread d σ) (synWait i s) := by
  simp only [synWait, unread_me, unread_cfg, acquire_unread, synTokens_unread, complete_unread]
  split
  · rfl
  · split <;> rfl

/-- A step of a command reads neither the schedule nor the DitherState of an unseeded block, where no command that draws
runs before the first INIT (R98, R196). -/
theorem exec_unread {i : Instr} (hdraw : s.Running → i.takesLock = true → s.seeded = true ∨ i = .init) :
    exec i (s.unread d σ) = thenNext (·.unread d σ) (exec i s) := by
  rcases i.family_cases with rfl | rfl | ⟨f, dth, rfl⟩ | ⟨k, rfl⟩ | ⟨f, rfl⟩ | ⟨f, rfl⟩
  · exact lockedCommand_unread d σ fun _ => seedGenerator_unread s d σ
  · refine lockedCommand_unread d σ fun hs => drawToRes_unread d σ ?_
    simpa using hdraw hs Instr.takesLock_draw
  · rw [exec_syn, exec_syn, synthesize, synthesize]
    cases describe f with
    | none => exact rejectSentinel_unread d σ f
    | some row =>
      refine byPhase_unread (fun _ => synAccept_unread d σ _ row) (fun _ => synWait_unread d σ _) fun hs =>
        synRun_unread d σ ?_ row dth
      refine (hdraw hs (Instr.takesLock_syn f dth)).resolve_right ?_
      cases f <;> nofun
  · rw [exec_vc, exec_vc]
    exact plainCommand_unread d σ (congrArg _ (volumeRun_unread s d σ _ _))
  · rw [exec_fmtq, exec_fmtq]
    exact plainCommand_unread d σ rfl
  · rw [exec_enc, exec_enc, encodeSample, encodeSample]
    cases describe f with
    | none => exact rejectSentinel_unread d σ f
    | some row => exact plainCommand_unread d σ (encRun_unread s d σ row)

end

section
variable {s : State} (d : Dither) (σ : List Agent → List Agent)

/-- A host's register write starts no run step, and so no draw. -/
theorem hostWrite_unread (p : Nat) (k : Slot) (v : Word) :
    hostWrite p k v (s.unread d σ) = thenNext (·.unread d σ) (hostWrite p k v s) := by
  have hact : (s.unread d σ).actingAs p = (s.actingAs p).unread d σ := rfl
  simp only [hostWrite, hact, unread_halted, unread_busy, unread_me, raiseFatal_unread, setMe_unread]
  split
  · rfl
  split
  · rfl
  case isFalse hidle =>
    split
    · cases decode v with
      | error x => rfl
      | ok i =>
        have hphase : (s.actingAs p).me.seq.phase = .idle := by simpa [State.busy] using hidle
        exact exec_unread d σ fun hs => by rw [hs.2] at hphase; cases hphase
    · rfl

theorem hostStore_unread (a : Word) (b : Byte) :
    hostStore a b (s.unread d σ) = thenNext (·.unread d σ) (hostStore a b s) := by
  rcases hostStore_cases a b s with ⟨h, e⟩ | ⟨h, e⟩ <;> rw [e]
  · exact if_pos h
  · exact if_neg (Bool.eq_false_iff.mp h)

/-- No register of a port's window shows DitherState (R34). -/
theorem hostAct_unread (p : Nat) : hostAct p (s.unread d σ) = thenNext (·.unread d σ) (hostAct p s) := by
  have hprog (l : List HostAction) : (s.unread d σ).withProg p l = (s.withProg p l).unread d σ := rfl
  rcases hostAct_cases p s with ⟨h, e⟩ | ⟨k, v, rest, h, e⟩ | ⟨k, rest, h, e⟩ | ⟨rest, h, e⟩ | ⟨a, b, rest, h, e⟩ <;>
    rw [e, hostAct, unread_port, h]
  · rfl
  · exact hostWrite_unread (s := s.withProg p rest) d σ p k v
  · rfl
  · cases hb : s.busy p <;> simp [hb, hprog] <;> rfl
  · exact hostStore_unread (s := s.withProg p rest) d σ a b

/-- Before the first INIT a port that runs under the lock runs INIT (R98). -/
theorem seeded_or_init_of_portInv {p : Nat} {i : Instr} (hinv : s.PortInv p) (hrun : (s.port p).seq.phase = .run)
    (hop : (s.port p).seq.op = some i) (htakes : i.takesLock = true) : s.seeded = true ∨ i = .init :=
  hinv.seed.imp_right fun h =>
    Option.some.inj (hop.symm.trans (h ((runsLocked_of_run hrun hop).trans htakes)))

theorem sequencerAct_unread {p : Nat} (hinv : s.PortInv p) :
    sequencerAct p (s.unread d σ) = thenNext (·.unread d σ) (sequencerAct p s) := by
  unfold sequencerAct
  rw [unread_port]
  cases hp : (s.port p).seq.phase with
  | idle => rfl
  | _ =>
    cases ho : (s.port p).seq.op with
    | none => rfl
    | some i => exact exec_unread (s := s.actingAs p) d σ fun hs => seeded_or_init_of_portInv (s := s) hinv hs.2 ho

theorem agentMove_unread (hinv : ∀ p, s.PortInv p) (g : Agent) :
    agentMove g (s.unread d σ) = thenNext (·.unread d σ) (agentMove g s) := by
  cases g with
  | host p => exact hostAct_unread d σ p
  | sequencer p => exact sequencerAct_unread d σ (hinv p)

section
variable (hinv : ∀ p, s.PortInv p)
include hinv

theorem faultWaits_unread (g : Agent) : faultWaits g (s.unread d σ) = faultWaits g s := by
  have hraises : raises g (s.unread d σ) = raises g s := by
    rw [raises, raises, agentMove_unread d σ hinv]
    cases agentMove g s <;> rfl
  rw [faultWaits, hraises]
  rfl

theorem agentAct_unread (g : Agent) :
    agentAct g (s.unread d σ) = thenNext (·.unread d σ) (agentAct g s) := by
  rw [agentAct, agentAct, faultWaits_unread d σ hinv, agentMove_unread d σ hinv]
  split <;> rfl

theorem sequencerEnabled_unread (p : Nat) : sequencerEnabled (s.unread d σ) p = sequencerEnabled s p := by
  rw [sequencerEnabled, sequencerEnabled, sequencerAct_unread d σ (hinv p)]
  cases sequencerAct p s <;> rfl

theorem agentEnabled_unread (g : Agent) : agentEnabled (s.unread d σ) g = agentEnabled s g := by
  unfold agentEnabled
  rw [faultWaits_unread d σ hinv]
  cases g with
  | host p => rfl
  | sequencer p => exact congrArg (!faultWaits (.sequencer p) s && ·) (sequencerEnabled_unread d σ hinv p)

theorem enabledAgents_unread : enabledAgents (s.unread d σ) = enabledAgents s := by
  rw [enabledAgents, funext (agentEnabled_unread d σ hinv)]
  rfl

end

/-- What the invariant says of a port says nothing of the schedule or of the count of choices. -/
theorem State.PortInv.scheduled {p : Nat} (h : s.PortInv p) (l : List Agent) (n : Nat) :
    State.PortInv { s with sched := l, choices := n } p :=
  .of_sameBlock (s := s) ⟨rfl, rfl, rfl, rfl, rfl, rfl, rfl, rfl, rfl, fun _ => rfl⟩ h

theorem freeStep_unread (hinv : ∀ p, s.PortInv p) :
    freeStep (s.unread d σ) = thenNext (·.unread d σ) (freeStep s) := by
  rw [freeStep, freeStep, enabledAgents_unread d σ hinv]
  rcases enabledAgents s with _ | ⟨g, _ | ⟨g', more⟩⟩
  · rfl
  · exact agentAct_unread d σ hinv g
  · exact agentAct_unread (s := { s with choices := s.choices + 1 }) d σ (fun p => (hinv p).scheduled s.sched _) _

/-- Where the schedule names no agent the step is a free choice (R9). -/
theorem step_of_sched_nil (h : s.sched = []) : step s = freeStep s := by
  simp [step, machineStep, h]

/-- A step reads no DitherState that stands there before the first INIT (R196). -/
theorem step_unread (hinv : ∀ p, s.PortInv p) : step (s.unread d id) = thenNext (·.unread d id) (step s) := by
  cases hs : s.sched with
  | nil =>
    rw [step_of_sched_nil hs, step_of_sched_nil (s := s.unread d id) hs]
    exact freeStep_unread d id hinv
  | cons g rest =>
    rw [step_of_sched hs, step_of_sched (s := s.unread d id) hs]
    exact agentAct_unread (s := { s with sched := rest }) d id (fun p => (hinv p).scheduled rest s.choices) g

/-- Settles O60: another DitherState goes through the step of an unseeded block, since by the invariant no command that
draws runs there (R98). -/
theorem unseededGeneratorIsNeverRead : Obligations.UnseededGeneratorIsNeverRead := by
  intro s d hinv hseed
  obtain ⟨-, hports, -⟩ := inv_iff.mp hinv
  rw [show { s with dither := d } = s.unread d id from (unread_of_unseeded d id hseed).symm, step_unread d hports]
  cases step s with
  | next t =>
    dsimp only [thenNext]
    split
    case isTrue ht => exact unread_of_seeded d id ht
    case isFalse ht => exact unread_of_unseeded d id (Bool.eq_false_iff.mpr ht)
  | fault r => rfl
  | refused r => rfl

end

end Sys2Proof.Machine

namespace Sys2Proof.Machine

/-! ## A port that is scheduled alone -/

section
variable {M : Host.Core} {s t : M.State}

/-- A run goes on from the state after its first step. -/
theorem run_of_next (h : M.step s = .next t) (n : Nat) : M.run (n + 1) s = M.run n t := by
  rw [Host.Core.run, h]

/-- A run goes on from the state after its first steps. -/
theorem run_add {n : Nat} (h : M.run n s = .next t) (k : Nat) : M.run (n + k) s = M.run k t := by
  induction n generalizing s with
  | zero => cases h; rw [Nat.zero_add]
  | succ n ih =>
    rw [Nat.succ_add]
    cases hstep : M.step s with
    | next u =>
      rw [run_of_next hstep] at h ⊢
      exact ih h
    | fault r => rw [Host.Core.run, hstep] at h; cases h
    | refused r => rw [Host.Core.run, hstep] at h; cases h

end

/-- The machine comes from `s` to `t` in `n` steps for which the sequencer of the acting port is scheduled alone,
whatever is scheduled after them. -/
def State.RunsAlone (s : State) (n : Nat) (t : State) : Prop :=
  t.active = s.active ∧ ∀ rest, Host.Core.run Sys2Proof.core n
    { s with sched := List.replicate n (.sequencer s.active) ++ rest } = .next { t with sched := rest }

namespace State.RunsAlone

theorem refl (s : State) : s.RunsAlone 0 s := ⟨rfl, fun _ => rfl⟩

theorem trans {n k : Nat} {s t u : State} (h : s.RunsAlone n t) (h' : t.RunsAlone k u) : s.RunsAlone (n + k) u := by
  obtain ⟨hactive, hrun⟩ := h
  obtain ⟨hactive', hrun'⟩ := h'
  refine ⟨hactive'.trans hactive, fun rest => ?_⟩
  rw [List.replicate_add, List.append_assoc, run_add (hrun _), ← hactive]
  exact hrun' rest

/-- Where `k` steps lead from each of a row of states to the next, `n * k` lead to the `n`-th. -/
theorem mul {k n : Nat} {state : Nat → State} (h : ∀ j, j < n → (state j).RunsAlone k (state (j + 1))) :
    (state 0).RunsAlone (n * k) (state n) := by
  induction n with
  | zero => rw [Nat.zero_mul]; exact refl _
  | succ n ih =>
    rw [Nat.succ_mul]
    exact (ih fun j hj => h j (by omega)).trans (h n (by omega))

end State.RunsAlone

/-- A step of a command in a seeded block is the same under every schedule. -/
theorem exec_sched {i : Instr} {s t : State} (hseed : s.seeded = true) (h : exec i s = .next t) (l : List Agent) :
    exec i { s with sched := l } = .next { t with sched := l } := by
  have hexec := exec_unread (i := i) s.dither (fun _ => l) fun _ _ => .inl hseed
  rw [unread_of_seeded _ _ hseed, h] at hexec
  exact hexec.trans (congrArg _ (unread_of_seeded _ _ ((exec_step h).seeded hseed)))

/-- The acting port is busy with a command. -/
def State.Runs (s : State) (i : Instr) : Prop := s.me.seq.phase ≠ .idle ∧ s.me.seq.op = some i

/-- The step of a busy port's command is the machine's, where its sequencer is scheduled (R31). -/
theorem runsAlone_of_exec {i : Instr} {s t : State} (hseed : s.seeded = true) (hruns : s.Runs i)
    (h : exec i s = .next t) : s.RunsAlone 1 t := by
  obtain ⟨hphase, hop⟩ := hruns
  have hbusy : s.busy s.active = true := bne_iff_ne.mpr hphase
  refine ⟨(exec_step h).sameAround.active, fun rest => ?_⟩
  have hstep : step { s with sched := .sequencer s.active :: rest } = .next { t with sched := rest } := by
    rw [step_of_sched rfl,
      agentAct_of_raises_false (raises_sequencer_eq_false (s := { s with sched := rest }) hbusy hop (.inl hseed)),
      agentMove_sequencer (s := { s with sched := rest }) hbusy hop]
    exact exec_sched hseed h rest
  exact run_of_next (M := Sys2Proof.core) (s := { s with sched := .sequencer s.active :: rest }) hstep 0

/-- The steps of a command are the machine's, as long as the port is busy with it. -/
theorem runsAlone_of_execTimes {i : Instr} {n : Nat} {s t : State} (hseed : s.seeded = true)
    (hruns : ∀ j, j < n → ∀ u, execTimes i j s = .next u → u.Runs i) (h : execTimes i n s = .next t) :
    s.RunsAlone n t := by
  induction n generalizing s with
  | zero => cases h; exact .refl _
  | succ n ih =>
    rw [execTimes] at h
    cases hexec : exec i s with
    | next u =>
      rw [hexec] at h
      have hrest := ih ((exec_step hexec).seeded hseed)
        (fun j hj v hv => hruns (j + 1) (by omega) v ((execTimes_of_next hexec j).trans hv)) h
      rw [Nat.add_comm]
      exact (runsAlone_of_exec hseed (hruns 0 (by omega) s rfl) hexec).trans hrest
    | fault r => rw [hexec] at h; cases h
    | refused r => rw [hexec] at h; cases h

/-! ## A SYN that is scheduled alone -/

/-- The port of a SYN that has been accepted waits for the lock (R105). -/
theorem me_accept_syn (f : Format) (dth : Bool) {s : State} (hp : s.active < s.ports.length) :
    (accept (.syn f dth) s).me = s.me.accepting (.syn f dth) .waitLock := by
  rw [accept, Instr.takesLock_syn]
  exact State.me_setMe s _ hp

section
variable {f : Format} {row : Row} {s : State} (hrow : describe f = some row) (dth : Bool)
include hrow

/-- Within a `sample` step the port is busy with its SYN (R106). -/
theorem runs_of_execTimes_syn_part (hs : s.BetweenSamples) (hop : s.me.seq.op = some (.syn f dth))
    (hmore : s.me.seq.sidx.toNat < s.me.samples) (hadmits : s.Admits s.me.seq.cur row.byteWidth) {j : Nat}
    (hj : j < row.byteWidth) {u : State} (h : execTimes (.syn f dth) j s = .next u) : u.Runs (.syn f dth) := by
  have hphase : s.me.seq.phase ≠ .idle := by simp [hs.1.2]
  rcases Nat.eq_zero_or_pos j with rfl | hpos
  · cases h
    exact ⟨hphase, hop⟩
  · rw [execTimes_syn_part hrow dth hs hmore hadmits hpos hj] at h
    cases h
    rw [State.Runs, me_during _ _ _ _ (State.active_lt_of_live hs.1.1)]
    exact ⟨hphase, hop⟩

/-- The step after the accepting one takes the lock for the whole command and loads the stream (R95, R105). -/
theorem exec_accept_acquires_call (hs : s.SynReady) (hgrain : s.cfg.lockGrain = .call) :
    exec (.syn f dth) (accept (.syn f dth) s) = .next (s.synAt f dth row .run (.held s.active) 0) := by
  have hme := me_accept_syn f dth (State.active_lt_of_live hs.idle.1)
  have hwaiting : (accept (.syn f dth) s).Waiting := ⟨(State.setMe_live s _).trans hs.idle.1, by rw [hme]; rfl⟩
  rw [exec_syn_acquires_call hrow dth hwaiting hgrain hs.seeded hs.free, hme, State.synAt, Port.synAt_zero]
  exact congrArg _ during_during

section
variable (hs : s.SynReady) (hgrain : s.cfg.lockGrain = .call)
include hs hgrain

/-- One sample of a SYN takes one step for each byte, with its port scheduled alone (R106; log 18). -/
theorem synAt_runsAlone (hadmits : s.Admits s.me.buf (s.me.samples * row.byteWidth)) {j : Nat}
    (hj : j < s.me.samples) : (s.synAt f dth row .run (.held s.active) j).RunsAlone row.byteWidth
      (s.synAt f dth row .run (.held s.active) (j + 1)) := by
  have hme := me_synAt (f := f) (row := row) dth hs .run (.held s.active) j
  have hsample := execTimes_synAt_sample hrow dth hs hadmits (.held s.active) hj
  rw [withSent_call (q := s.me.synAt _ _ _ _ _) hgrain hs.sent] at hsample
  refine runsAlone_of_execTimes hs.seeded (fun k hk u hu => ?_) hsample
  refine runs_of_execTimes_syn_part hrow dth (synAt_betweenSamples dth hs _ j) (by rw [hme]; rfl) ?_ ?_ hk hu <;>
    rw [hme]
  · exact (toNat_ofNat_of_le_samples hj.le).trans_lt hj
  · exact admits_sample (s := s) hadmits hj

/-- A SYN that has been accepted runs to its end with its port scheduled alone: the acquire step, the samples, `done`
(R204). -/
theorem accept_runsAlone (hadmits : s.Admits s.me.buf (s.me.samples * row.byteWidth)) :
    (accept (.syn f dth) s).RunsAlone (s.me.samples * row.byteWidth + 2) (s.afterSyn f dth row s.me.samples) := by
  have haccepted : (accept (.syn f dth) s).Runs (.syn f dth) := by
    rw [State.Runs, me_accept_syn f dth (State.active_lt_of_live hs.idle.1)]
    exact ⟨nofun, rfl⟩
  have hmade : (s.synAt f dth row .run (.held s.active) s.me.samples).Runs (.syn f dth) := by
    rw [State.Runs, me_synAt dth hs]
    exact ⟨nofun, rfl⟩
  have hacquire := runsAlone_of_exec (s := accept (.syn f dth) s) hs.seeded haccepted
    (exec_accept_acquires_call hrow dth hs hgrain)
  have hsamples := State.RunsAlone.mul (state := s.synAt f dth row .run (.held s.active)) fun j hj =>
    synAt_runsAlone hrow dth hs hgrain hadmits hj
  rw [show s.me.samples * row.byteWidth + 2 = 1 + s.me.samples * row.byteWidth + 1 by omega]
  exact (hacquire.trans hsamples).trans (runsAlone_of_exec hs.seeded hmade (exec_synAt_done hrow dth hs _))

end

end

/-- A SYN leaves what its host has still to do (R65). -/
theorem prog_afterSyn {s : State} (hs : s.SynReady) (f : Format) (dth : Bool) (row : Row) (n : Nat) :
    (s.afterSyn f dth row n).me.prog = s.me.prog := by
  rw [State.afterSyn, me_during _ _ _ _ (State.active_lt_of_live hs.idle.1)]
  rfl

/-- The state in which the host of port `p` has issued its next command: the port acts. -/
def State.issued (s : State) (p : Nat) (more : List HostAction) : State := (s.withProg p more).actingAs p

theorem me_issued {s : State} {p : Nat} (hp : p < s.ports.length) (more : List HostAction) :
    (s.issued p more).me = { s.port p with prog := more } := State.port_setPort_same s p _ hp

/-- A SYN that its host writes to `CMD` is accepted by the machine's step, where the host is scheduled (R24, R105). -/
theorem step_issues_syn {f : Format} {dth : Bool} {row : Row} (hrow : describe f = some row) {s : State} {p : Nat}
    {more : List HostAction} {l : List Agent} (hh : s.halted = false) (hbusy : s.busy p = false)
    (hprog : (s.port p).prog = .write 0 (commandValue (.syn f dth)) :: more) (hsched : s.sched = .host p :: l)
    (hfits : (s.port p).rangeFits row.byteWidth = true) (hgrain : s.cfg.lockGrain = .call) :
    step s = .next { accept (.syn f dth) (s.issued p more) with sched := l } := by
  have hd : decode (commandValue (.syn f dth)) = .ok (.syn f dth) := (decodeAcceptsExactlyTheEncodings _ _).mpr rfl
  have hrej : (Instr.syn f dth).isRejected = false := by
    rw [← Bool.not_eq_true, Instr.isRejected_syn, hrow]
    nofun
  have hraises := (raises_issue (s := { s with sched := l }) hh hbusy hprog hd).trans hrej
  have hme := me_issued (s := { s with sched := l }) (lt_length_of_prog hprog) more
  rw [step_of_sched hsched, agentAct_of_raises_false hraises,
    agentMove_issue (s := { s with sched := l }) hh hbusy hprog hd,
    exec_syn_idle dth hrow (idle_of_issue (s := { s with sched := l }) hh hbusy hprog)]
  exact synAccept_call (s := { s with sched := l }.issued p more) (by rw [hme]; exact hfits) hgrain

/-- Settles O21: the host's step accepts the command, and from there on every step is one of its sequencer's. -/
theorem synCompletesInBoundedSteps : Obligations.SynCompletesInBoundedSteps := by
  intro f dth row s p more rest hrow hh hp hidle hout hsent hfree hseed hgrain hfits hadmits hprog hsched
  have hbusy : s.busy p = false := by simp [State.busy, hidle]
  have hme := me_issued hp more
  have hs : (s.issued p more).SynReady :=
    ⟨idle_of_issue hh hbusy hprog, by rw [hme]; exact hout, by rw [hme]; exact hsent, hfree, hseed⟩
  have hsamples : (s.issued p more).me.samples = 2 * (s.port p).nfr.toNat := by rw [hme]; rfl
  have hissue := step_issues_syn hrow hh hbusy hprog hsched hfits hgrain
  obtain ⟨-, hrun⟩ := accept_runsAlone hrow dth hs hgrain (by rw [hsamples, hme]; exact hadmits)
  rw [hsamples] at hrun
  have hready := synReady_afterSyn hs f dth row (2 * (s.port p).nfr.toNat)
  refine ⟨_, (run_of_next (M := Sys2Proof.core) (s := s) hissue _).trans (hrun rest),
    bne_eq_false_iff_eq.mpr hready.idle.2, hh, hready.free, rfl, ?_, ?_, ?_⟩
  · exact (prog_afterSyn hs f dth row _).trans (congrArg Port.prog hme)
  · exact (tok_afterSyn hs f dth row _).trans (by rw [hme]; rfl)
  · rw [State.afterSyn, hme]
    rfl

end Sys2Proof.Machine
